-- ==== Sys2Proof/Word.lean ====
section
/-! DEFINITION. The word types of the block: a register of the host interface is 32 bits (R62), a register of the datapath
and a byte of host memory 8 bits (R33 to R35, R64), a host memory address 16 bits (R60). All are unsigned (R9). -/

namespace Sys2Proof

/-- A datapath register or a byte of host memory. -/
abbrev Byte := BitVec 8

/-- A host register or a command word (REG_W = 32, R7). -/
abbrev Word := BitVec 32

/-- A byte address of host memory (ADDR_W = 16, R7). -/
abbrev Addr := BitVec 16

end Sys2Proof
end

