-- ==== Sys2Proof/Config.lean ====
section
/-! DEFINITION. What an implementation fixes (00_scope.md R7) and the free values. FAMILY, the parameters marked OPEN and the
source's unaudited literals (R3; 93_implementation_defined.md row 7) are the fields of `Build`, which State carries
unchanged (log 1); the widths and lengths of R7 that no row of 93 leaves to the instance are constants. -/

namespace Sys2Proof

/-- FAMILY, fixed when the instance is built (R20); encoding 3 is never held, so it has no constructor. -/
inductive Family where
  | nes
  | db9
  | tg16
  deriving DecidableEq, Repr

/-- The source's numeric literals, which are parameters with the source's values as defaults (R3, R7; 93 row 7). -/
structure Literals where
  /-- T_LATCH_US (R133). -/
  tLatchUs : Nat := 12
  /-- T_CLK_SETUP_US (R133). -/
  tClkSetupUs : Nat := 6
  /-- T_CLK_HOLD_US (R133). -/
  tClkHoldUs : Nat := 6
  /-- T_DB9_SETTLE_US (R154). -/
  tDb9SettleUs : Nat := 20
  /-- T_DB9_INIT_MS (R159). -/
  tDb9InitMs : Nat := 100
  /-- T_TG16_US, each of the three waits (R183). -/
  tTg16Us : Nat := 1000
  /-- NIB_MULTITAP (R162). -/
  nibMultitap : BitVec 4 := 0x3#4
  /-- NIB_NOCONNECT (R163). -/
  nibNoConnect : BitVec 4 := 0xf#4
  /-- NIB_GEN_LOW (R163, R164). -/
  nibGenLow : BitVec 4 := 0x3#4
  /-- RAW_INVALID, the mark of a phase that was not read (R157). -/
  rawInvalid : BitVec 8 := 0xff#8
  deriving DecidableEq, Repr

/-- Every literal at the source's value (R7). -/
def Literals.source : Literals := {}

/-- No physical line is named twice: six lines so named are a permutation of {0..5} (R7). -/
def isPermutation (m : Vector (Fin 6) 6) : Bool := decide m.toList.Nodup

/-- DB9_PIN_MAP, a permutation of {0..5} (R7): logical bit i is physical line `lines[i]` (R152). -/
structure PinMap where
  lines : Vector (Fin 6) 6
  perm : isPermutation lines = true
  deriving DecidableEq, Repr

/-- The parameters the spec leaves to the instance (R7: FAMILY, the rows marked OPEN, and the literals of R3). -/
structure Build where
  /-- FAMILY (R20). -/
  family : Family
  /-- F_CLK_HZ, the block clock. -/
  fClkHz : Nat
  /-- REG_BASE, the platform's place for the register space (R67); no rule of the block reads it (log 24). -/
  regBase : Nat
  /-- T_INIT_NES_US, a minimum that may be 0 (R132). -/
  tInitNesUs : Nat
  /-- T_INIT_TG16_US, a minimum that may be 0 (R182). -/
  tInitTg16Us : Nat
  /-- DB9_PIN_MAP (R152). -/
  pinMap : PinMap
  /-- The durations and patterns the source gives (R3). -/
  literals : Literals
  deriving DecidableEq, Repr

/-- RAW[0..4], the bytes of one read sequence (R33). -/
structure Raw where
  r0 : Byte
  r1 : Byte
  r2 : Byte
  r3 : Byte
  r4 : Byte
  deriving DecidableEq, Repr

/-- The three bytes of a report, in report order (R220): the form CANON and LAST hold (R34, R35). -/
structure Report where
  x : Byte
  y : Byte
  btn : Byte
  deriving DecidableEq, Repr, Inhabited

namespace Config

/-- REPORT_LEN, every family (R221). -/
def reportLen : Nat := 3

/-- NES_BITS (R133). -/
def nesBits : Nat := 8

/-- How many sequencer steps one step of the model takes when no host operation is waiting to land: more than any command
has, so that the command ends (log 23). -/
def maxSteps : Nat := 128

/-- Free value: the levels of the port's physical input lines at a sample the list of answers does not give, by the
number of the sample (R13, log 5). -/
opaque freeLines : Nat → BitVec 6

/-- Free value: by how many cycles a wait's count exceeds the least count of R265, by the number of the wait (log 8). -/
opaque waitSlack : Nat → Nat

/-- Free value: whether a racing host read of a buffer byte returns the new value, by the number of the race (R70, log 11). -/
opaque readsNew : Nat → Bool

/-- Free value: what a byte of host memory holds that nothing in the model has written, by its address (log 6). -/
opaque hostMemory : Nat → Byte

/-- Free value: the report Translate gives for FAMILY = DB9 with KIND = NONE, which R201 leaves undefined (log 13). -/
opaque unstatedTranslation : Raw → Report

end Config

end Sys2Proof
end

