-- ==== Sys2Proof/Syntax.lean ====
section
/-! DEFINITION. The commands, one constructor per row of spec/opcode_table.json (R86), and the lines of a host program
with their pseudo-instructions (R89, R90). The fields of `Instr` have exactly the widths of the encoding's free fields, so
every term is an instruction of the table; the operands of a host program's line are numbers, which `WellFormed` checks. -/

namespace Sys2Proof

/-- A command the block executes. -/
inductive Instr where
  /-- INIT (R104). -/
  | init
  /-- POLL (R107). -/
  | poll
  /-- HAS_CHANGED with its report identifier (R223). -/
  | hasChanged (rid : Byte)
  /-- BUILD_REPORT with a buffer, BUF = 1 (R224). -/
  | buildReport (rid : Byte) (addr : Addr)
  /-- BUILD_REPORT with the null buffer, BUF = 0 (R224; the table's row BUILD_REPORT_NULL). -/
  | buildReportNull (rid : Byte)
  deriving DecidableEq, Repr

/-- A command as a host program writes it (R89), with the pseudo-instructions of R90. -/
inductive AsmCommand where
  | init
  | poll
  | haschg (rid : Nat)
  | build (rid addr : Nat)
  | buildNull (rid : Nat)
  /-- `.word w`: a word written as is, which may be illegal. -/
  | word (w : Nat)
  /-- `haschg` = `haschg 0`. -/
  | haschgZero
  /-- `build addr` = `build 0, addr`. -/
  | buildAt (addr : Nat)
  /-- `sync` = `build 0, null`. -/
  | sync
  deriving DecidableEq, Repr

/-- A line of a host program (R89, R90). -/
inductive AsmLine where
  /-- `wr CMD, X`. -/
  | wr (c : AsmCommand)
  /-- `rd RESP`. -/
  | rdResp
  /-- `rd STATUS`. -/
  | rdStatus
  /-- `waitidle`: `rd STATUS` until BUSY reads 0. -/
  | waitidle
  /-- `cmd X` = `wr CMD, X` followed by `waitidle`. -/
  | cmd (c : AsmCommand)
  deriving DecidableEq, Repr

end Sys2Proof
end

