-- ==== Sys2Proof/WellFormed.lean ====
section
/-! DEFINITION. The checks on what is written in numbers: an assembler rejects an operand out of range (R89).
That DB9_PIN_MAP is a permutation (R7) is checked where one is built, in `PinMap`. -/

namespace Sys2Proof

/-- A report identifier is 0 to 255 (R89). -/
def ridInRange (rid : Nat) : Bool := decide (rid < 256)

/-- A buffer address is 0 to 65535 (R89). -/
def addrInRange (addr : Nat) : Bool := decide (addr < 65536)

/-- A command word has 32 bits (R80). -/
def wordInRange (w : Nat) : Bool := decide (w < 4294967296)

/-- The operands of a host program's command are in range (R89). -/
def AsmCommand.wellFormed : AsmCommand → Bool
  | .init => true
  | .poll => true
  | .haschg rid => ridInRange rid
  | .build rid addr => ridInRange rid && addrInRange addr
  | .buildNull rid => ridInRange rid
  | .word w => wordInRange w
  | .haschgZero => true
  | .buildAt addr => addrInRange addr
  | .sync => true

/-- A line is well-formed when its command is. -/
def AsmLine.wellFormed : AsmLine → Bool
  | .wr c => c.wellFormed
  | .rdResp => true
  | .rdStatus => true
  | .waitidle => true
  | .cmd c => c.wellFormed

end Sys2Proof
end

