-- ==== Sys2Proof/Decode.lean ====
section
/-! DEFINITION. Decoding a command word (R88) and encoding one (R86), and the assembler of host program lines (R89, R90). -/

namespace Sys2Proof

/-- Why a word is ILLEGAL (R87): the operation its OP field names, whose pattern it does not match. -/
inductive IllegalWord where
  /-- OP = 0 and the word is not 0x00000000. -/
  | notInit
  /-- OP = 1 and the word is not 0x00000001. -/
  | notPoll
  /-- OP = 2 with a bit of w[7:2] or w[31:16] set. -/
  | notHasChanged
  /-- OP = 3 with a bit of w[7:3] set, or BUF = 0 and a bit of w[31:16] set. -/
  | notBuildReport
  deriving DecidableEq, Repr

/-- OP = w[1:0] (R81). -/
def fieldOp (w : Word) : BitVec 2 := w.extractLsb' 0 2

/-- BUF = w[2] (R82). -/
def fieldBuf (w : Word) : Bool := w.getLsbD 2

/-- RSV = w[7:3] (R80). -/
def fieldRsv (w : Word) : BitVec 5 := w.extractLsb' 3 5

/-- RID = w[15:8] (R83). -/
def fieldRid (w : Word) : Byte := w.extractLsb' 8 8

/-- ADDR = w[31:16] (R84). -/
def fieldAddr (w : Word) : Addr := w.extractLsb' 16 16

/-- The decoding procedure, total on every 32-bit word (R88). -/
def decode (w : Word) : Except IllegalWord Instr :=
  if fieldOp w = 0#2 then
    if w = 0x00000000#32 then .ok .init else .error .notInit
  else if fieldOp w = 1#2 then
    if w = 0x00000001#32 then .ok .poll else .error .notPoll
  else if fieldOp w = 2#2 then
    if fieldBuf w = false ∧ fieldRsv w = 0#5 ∧ fieldAddr w = 0#16 then .ok (.hasChanged (fieldRid w))
    else .error .notHasChanged
  else if fieldRsv w = 0#5 ∧ fieldBuf w = true then .ok (.buildReport (fieldRid w) (fieldAddr w))
  else if fieldRsv w = 0#5 ∧ fieldAddr w = 0#16 then .ok (.buildReportNull (fieldRid w))
  else .error .notBuildReport

/-- A word from its ADDR and RID fields and its low byte: `low | (rid << 8) | (addr << 16)` (R80, R89). -/
def packWord (addr : Addr) (rid low : Byte) : Word :=
  (addr.setWidth 32 <<< 16) ||| (rid.setWidth 32 <<< 8) ||| low.setWidth 32

/-- The word of a command, from the patterns of R86. -/
def encode : Instr → Word
  | .init => 0x00000000#32
  | .poll => 0x00000001#32
  | .hasChanged rid => packWord 0x0000#16 rid 0x02#8
  | .buildReport rid addr => packWord addr rid 0x07#8
  | .buildReportNull rid => packWord 0x0000#16 rid 0x03#8

/-- The instruction the decoder reads from a table row's word: `nbits` bits numbered from the least significant, every
bit above them 0. -/
def decodeTableWord (nbits w : Nat) : Option Instr :=
  match decode (BitVec.ofNat 32 (w % 2 ^ nbits)) with
  | .ok i => some i
  | .error _ => none

/-- The word of a host program's command (R89), with the expansions of R90; an operand out of range is rejected. -/
def assemble (c : AsmCommand) : Option Word :=
  if c.wellFormed then
    match c with
    | .init => some (encode .init)
    | .poll => some (encode .poll)
    | .haschg rid => some (encode (.hasChanged (BitVec.ofNat 8 rid)))
    | .build rid addr => some (encode (.buildReport (BitVec.ofNat 8 rid) (BitVec.ofNat 16 addr)))
    | .buildNull rid => some (encode (.buildReportNull (BitVec.ofNat 8 rid)))
    | .word w => some (BitVec.ofNat 32 w)
    | .haschgZero => some (encode (.hasChanged 0#8))
    | .buildAt addr => some (encode (.buildReport 0#8 (BitVec.ofNat 16 addr)))
    | .sync => some (encode (.buildReportNull 0#8))
  else none

end Sys2Proof
end

