-- ==== Sys2Proof/Machine/State.lean ====
section
/-! DEFINITION. The state of the block and of what it touches (10_state.md), as plain data, and the state after reset (R260). -/

namespace Sys2Proof.Machine

/-- KIND (R31); codes 5, 6 and 7 are never held, so they have no constructor. -/
inductive Kind where
  | none
  | atari
  | sms
  | genesis3
  | genesis6
  deriving DecidableEq, Repr

/-- RESP.CODE (R240). -/
inductive Code where
  | ok
  | errMultitap
  | errNotInit
  | errIllegal
  deriving DecidableEq, Repr

/-- The logical values of the TG16 output-enable line (R180). -/
inductive OutputEnable where
  | enable
  | disable
  deriving DecidableEq, Repr

/-- The output-line registers (R38); a family uses its own only. -/
structure Lines where
  latch : Bool
  clk : Bool
  sel : Bool
  oe : OutputEnable
  dsel : Bool
  deriving DecidableEq, Repr

/-- `Drive(L, lvl)` (R10), with the level of its line's type. -/
inductive Drive where
  | latch (v : Bool)
  | clk (v : Bool)
  | sel (v : Bool)
  | oe (v : OutputEnable)
  | dsel (v : Bool)
  deriving DecidableEq, Repr

/-- What the outside of the block can see happen, in order (R14, R69; log 10). -/
inductive Event where
  /-- A line event `Drive`. -/
  | drive (d : Drive)
  /-- A line event `Wait`, with its minimum in microseconds and no maximum. -/
  | wait (minUs : Nat)
  /-- A line event `Sample(DATA)`, with the value read. -/
  | sampleData (v : BitVec 1)
  /-- A line event `Sample(BUS)`, with the value after the pin map. -/
  | sampleBus (v : BitVec 6)
  /-- A line event `Sample(TBUS)`, with the value read. -/
  | sampleTbus (v : BitVec 4)
  /-- INIT drives the lines of the family at their idle levels (R104). -/
  | idleDrive
  /-- The block writes HOST_IE (R251). -/
  | hostIe (v : Bool)
  /-- `MemWrite(addr, 1, v)` (R64). -/
  | memWrite (addr : Addr) (v : Byte)
  /-- RST is asserted: the lines are released (R260). -/
  | reset
  deriving DecidableEq, Repr

/-- The steps of the sequencer (R22): the entries of the step tables of R102 to R107, R133, R155, R157, R160, R183, R223
and R224, in the pseudocode's grain (log 16). -/
inductive Act where
  /-- The checks before execution (R102). -/
  | check
  /-- `Complete(code, changed, count)` (R103). -/
  | complete (code : Code) (changed : Bool) (count : Byte)
  /-- `MaskIRQ()` (R251). -/
  | maskIrq
  /-- `RestoreIRQ()` (R251). -/
  | restoreIrq
  /-- INIT_OK, FIRST and KIND cleared at INIT's start (R104). -/
  | clearSession
  /-- The OUT registers set to the family's idle levels (R104). -/
  | idleLevels
  /-- LINES_EN set (R104). -/
  | enableLines
  /-- `Drive(L, lvl)`. -/
  | drive (d : Drive)
  /-- `Wait(t)`: its event, and WAIT_CNT loaded (R39). -/
  | wait (minUs : Nat)
  /-- The cycles of a wait until WAIT_CNT is 0 (R39). -/
  | count
  /-- `v <- 0x00` (R133). -/
  | clearShift
  /-- `d <- Sample(DATA)` and the shift of R133. -/
  | sampleData
  /-- `RAW[0] <- v` (R133). -/
  | storeShift
  /-- Phase `k + 1`: `RAW[k] <- zext_8(Sample(BUS))` (R153). -/
  | samplePhase (k : Fin 5)
  /-- The phases not read marked RAW_INVALID (R157). -/
  | invalidatePhases
  /-- `a <- Sample(TBUS)` (R183). -/
  | sampleBankA
  /-- `b <- Sample(TBUS)` (R183). -/
  | sampleBankB
  /-- `RAW[0] <- {b, a}` (R184). -/
  | storeBanks
  /-- `Identify(RAW)` and INIT's branch on it (R104, R161). -/
  | identify
  /-- `CANON <- {128, 128, 0}` (R104). -/
  | neutralCanon
  /-- `LAST <- {128, 128, 0}` (R104). -/
  | neutralLast
  /-- `FIRST <- 1` (R104). -/
  | setFirst
  /-- `INIT_OK <- 1` (R104). -/
  | setInitOk
  /-- `CANON <- Translate(FAMILY, KIND, RAW)` (R107). -/
  | translate
  /-- `c <- FIRST or Differs(CANON, LAST)` (R223). -/
  | compare
  /-- `FIRST <- 0` (R223). -/
  | clearFirst
  /-- `MemWrite((addr + i) mod 2^16, 1, CANON[i])` (R224). -/
  | memWrite (addr : Addr) (i : Fin 3)
  /-- `LAST <- CANON` (R224). -/
  | copyLast
  deriving DecidableEq, Repr

/-- What the outside world can do to the block and to what it shares with the host (R12, R260; log 7). -/
inductive HostOp where
  /-- A whole-word write of a register index (R24, R60, R66). -/
  | writeReg (index : BitVec 2) (w : Word)
  /-- A whole-word read of a register index (R24 to R27, R61). -/
  | readReg (index : BitVec 2)
  /-- A register access narrower than 32 bits (R62). -/
  | narrowAccess
  /-- A read of a byte of host memory (R70). -/
  | readMem (addr : Addr)
  /-- A write of a byte of host memory (R74). -/
  | writeMem (addr : Addr) (v : Byte)
  /-- A write of HOST_IE (R41, R267). -/
  | writeIe (v : Bool)
  /-- The level of the reset input RST (R260). -/
  | setRst (v : Bool)
  deriving DecidableEq, Repr

/-- A host operation still to land, and the number of sequencer steps a running command takes before it lands. -/
structure Arrival where
  after : Nat
  op : HostOp
  deriving DecidableEq, Repr

/-- Host memory: the bytes something in the model has written, at strictly rising addresses; an unlisted address has no
known value (log 6). -/
structure Memory where
  cells : List Host.Cell
  deriving DecidableEq, Repr

/-- The state. Resets are in `State.reset`; the rules are in INVENTORY.md. -/
@[ext]
structure State where
  /-- The instance's parameters, which no step writes (R13, R20). -/
  build : Build
  /-- FSM (R22): the steps of the running command still to be taken, the current one first; IDLE is the empty list. -/
  fsm : List Act
  /-- CUR (R28). -/
  cur : Word
  /-- RESP (R25). -/
  resp : Word
  /-- STATUS.BUSY (R27). -/
  busy : Bool
  /-- INIT_OK (R29). -/
  initOk : Bool
  /-- FIRST (R30). -/
  first : Bool
  /-- KIND (R31). -/
  kind : Kind
  /-- DROP (R32). -/
  drop : Bool
  /-- LINES_EN (R37). -/
  linesEn : Bool
  /-- RAW[0..4] (R33). -/
  raw : Raw
  /-- CANON[0..2] (R34). -/
  canon : Report
  /-- LAST[0..2] (R35). -/
  last : Report
  /-- The output-line registers (R38). -/
  lines : Lines
  /-- SAVED_IE (R36). -/
  savedIe : Bool
  /-- WAIT_CNT (R39). -/
  waitCnt : Nat
  /-- BIT_CNT (R40). -/
  bitCnt : BitVec 4
  /-- The DB9 phase index (R40): the phase sampled last, 1 to 5. -/
  phase : BitVec 3
  /-- The v of NesRead (R133). -/
  shift : Byte
  /-- The a of Tg16Read (R183). -/
  bankA : BitVec 4
  /-- The b of Tg16Read (R183). -/
  bankB : BitVec 4
  /-- HOST_IE (R41). -/
  hostIe : Bool
  /-- Host memory (R42). -/
  mem : Memory
  /-- The level of RST (R260). -/
  rst : Bool
  /-- The host operations still to land, in the order the host issues them (R71; log 7). -/
  host : List Arrival
  /-- What the last host read returned (log 22). -/
  rdata : Word
  /-- The answers of the attached controller, one per Sample: the levels of the port's six physical input lines (log 5). -/
  pad : List (BitVec 6)
  /-- What each buffer byte held before the running BUILD_REPORT wrote it (R70; log 11). -/
  oldBytes : List Host.Cell
  /-- The events so far, the oldest first (R14; log 10). -/
  trace : List Event
  /-- How many samples were taken (log 5). -/
  samples : Nat
  /-- How many waits were begun (log 8). -/
  waits : Nat
  /-- How many host reads raced with a BUILD_REPORT (log 11). -/
  races : Nat
  deriving DecidableEq, Repr

/-- The block has no fault: every operation is a bounded read of passive hardware, no line sample, wait or memory write
can fail, and an error is a result code (R247, R249). -/
inductive Fault where
  deriving DecidableEq, Repr

/-- Why a step has no meaning. -/
inductive Refusal where
  /-- Raised by `exec` for an instruction of the table that has no meaning in the model. Safe: nothing can be proved of a
  run that ends so. No instruction ends so now. -/
  | notModelled (mnemonic : String)
  /-- Raised by a host register access narrower than 32 bits, which a model refuses (R62). Safe: the run ends. -/
  | narrowAccess
  deriving DecidableEq, Repr

/-- The instance the reset state stands for (log 2); no statement rests on its values. -/
def defaultBuild : Build where
  family := .nes
  fClkHz := 1000000
  regBase := 0
  tInitNesUs := 0
  tInitTg16Us := 0
  pinMap := ⟨#v[0, 1, 2, 3, 4, 5], by decide⟩
  literals := .source

/-- The machine right after reset (R260): the values of 10_state.md, and 0 for the registers it leaves unspecified (log 3, 4). -/
def State.reset : State where
  build := defaultBuild
  fsm := []
  cur := 0#32
  resp := 0#32
  busy := false
  initOk := false
  first := false
  kind := .none
  drop := false
  linesEn := false
  raw := ⟨0#8, 0#8, 0#8, 0#8, 0#8⟩
  canon := ⟨0#8, 0#8, 0#8⟩
  last := ⟨0#8, 0#8, 0#8⟩
  lines := ⟨false, false, false, .disable, false⟩
  savedIe := false
  waitCnt := 0
  bitCnt := 0#4
  phase := 0#3
  shift := 0#8
  bankA := 0#4
  bankB := 0#4
  hostIe := false
  mem := ⟨[]⟩
  rst := false
  host := []
  rdata := 0#32
  pad := []
  oldBytes := []
  trace := []
  samples := 0
  waits := 0
  races := 0

end Sys2Proof.Machine
end

