-- ==== Sys2Proof/Machine/Operands.lean ====
section
/-! DEFINITION. What the steps take apart and put together: the values samples return, the DB9 pin map, the bits and bytes
of RAW and of a report, and the lines. -/

namespace Sys2Proof.Machine

/-- The levels the controller presents at the `k`-th sample from `s` on: its next answers, then free values (R13). -/
def State.lineAt (s : State) (k : Nat) : BitVec 6 :=
  (s.pad[k]?).getD (Config.freeLines (s.samples + k))

/-- The state after one sample: an answer is used up. A sample has no other side effect (R66). -/
def State.sampled (s : State) : State :=
  { s with pad := s.pad.tail, samples := s.samples + 1 }

/-- DATA, the NES data line (R130): physical input line 0 (log 5). -/
def dataLine (phys : BitVec 6) : BitVec 1 := phys.extractLsb' 0 1

/-- TBUS[3:0] (R180): physical input lines 3 to 0 (log 5). -/
def tbusLines (phys : BitVec 6) : BitVec 4 := phys.extractLsb' 0 4

/-- BUS[i] = PHYS[DB9_PIN_MAP(i)] (R152). -/
def busLines (pinMap : PinMap) (phys : BitVec 6) : BitVec 6 :=
  ((BitVec.ofBool (phys.getLsbD pinMap.lines[5])).setWidth 6 <<< 5) |||
  ((BitVec.ofBool (phys.getLsbD pinMap.lines[4])).setWidth 6 <<< 4) |||
  ((BitVec.ofBool (phys.getLsbD pinMap.lines[3])).setWidth 6 <<< 3) |||
  ((BitVec.ofBool (phys.getLsbD pinMap.lines[2])).setWidth 6 <<< 2) |||
  ((BitVec.ofBool (phys.getLsbD pinMap.lines[1])).setWidth 6 <<< 1) |||
  (BitVec.ofBool (phys.getLsbD pinMap.lines[0])).setWidth 6

/-- The low nibble of a sample (R15). -/
def lowNibble (b : Byte) : BitVec 4 := b.extractLsb' 0 4

/-- `zext_8` of a bus sample (R153). -/
def zext8 (v : BitVec 6) : Byte := v.setWidth 8

/-- RAW[k] (R33). -/
def rawGet (r : Raw) (k : Fin 5) : Byte :=
  match k with
  | 0 => r.r0
  | 1 => r.r1
  | 2 => r.r2
  | 3 => r.r3
  | 4 => r.r4

/-- `RAW[k] <- v` (R33). -/
def rawSet (r : Raw) (k : Fin 5) (v : Byte) : Raw :=
  match k with
  | 0 => { r with r0 := v }
  | 1 => { r with r1 := v }
  | 2 => { r with r2 := v }
  | 3 => { r with r3 := v }
  | 4 => { r with r4 := v }

/-- Byte `i` of the report: X, Y, BTN (R220). -/
def reportByte (r : Report) (i : Fin 3) : Byte :=
  match i with
  | 0 => r.x
  | 1 => r.y
  | 2 => r.btn

/-- The neutral state (R105, R203). -/
def neutralReport : Report := ⟨128#8, 128#8, 0#8⟩

/-- Differs(CANON, LAST), byte for byte (R222). -/
def differs (canon last : Report) : Bool :=
  canon.x != last.x || canon.y != last.y || canon.btn != last.btn

/-- One step of NesRead's bit loop: `v <- (v << 1) | (~d & 1)` (R133). -/
def shiftIn (v : Byte) (d : BitVec 1) : Byte := (v <<< 1) ||| (~~~d).setWidth 8

/-- `{b[3:0], a[3:0]}` (R184). -/
def packBanks (a b : BitVec 4) : Byte := (b.setWidth 8 <<< 4) ||| a.setWidth 8

/-- The address of report byte `i`: (ADDR + i) mod 2^16 (R63). -/
def reportAddr (addr : Addr) (i : Fin 3) : Addr := addr + BitVec.ofNat 16 i.val

/-- An output register after a `Drive` of its line (R38). -/
def setLine (l : Lines) (d : Drive) : Lines :=
  match d with
  | .latch v => { l with latch := v }
  | .clk v => { l with clk := v }
  | .sel v => { l with sel := v }
  | .oe v => { l with oe := v }
  | .dsel v => { l with dsel := v }

/-- The drives that put a family's lines at their idle levels (R131, R151, R181). -/
def idleDrives (f : Family) : List Drive :=
  match f with
  | .nes => [.latch false, .clk true]
  | .db9 => [.sel true]
  | .tg16 => [.oe .enable, .dsel false]

/-- The output registers with the family's at their idle levels (R104). -/
def idleLines (f : Family) (l : Lines) : Lines := (idleDrives f).foldl setLine l

/-- The levels at which the family's output lines are driven: none while LINES_EN = 0, the lines being released (R37). -/
def State.drivenLines (s : State) : List Drive :=
  if s.linesEn then
    match s.build.family with
    | .nes => [.latch s.lines.latch, .clk s.lines.clk]
    | .db9 => [.sel s.lines.sel]
    | .tg16 => [.oe s.lines.oe, .dsel s.lines.dsel]
  else []

end Sys2Proof.Machine
end

