-- ==== Sys2Proof/Machine/Flags.lean ====
section
/-! DEFINITION. The words the host reads: RESP's fields (R25, R103) and STATUS's (R27). -/

namespace Sys2Proof.Machine

/-- The two bits of RESP.CODE (R240). -/
def codeBits : Code → BitVec 2
  | .ok => 0#2
  | .errMultitap => 1#2
  | .errNotInit => 2#2
  | .errIllegal => 3#2

/-- The three bits of STATUS.KIND (R31). -/
def kindBits : Kind → BitVec 3
  | .none => 0#3
  | .atari => 1#3
  | .sms => 2#3
  | .genesis3 => 3#3
  | .genesis6 => 4#3

/-- The two bits of STATUS.FAMILY (R20). -/
def familyBits : Family → BitVec 2
  | .nes => 0#2
  | .db9 => 1#2
  | .tg16 => 2#2

/-- `zext_32({OP, COUNT, 5'b00000, CHANGED, CODE})`, each field at its place: OP at 16, COUNT at 8, CHANGED at 2, CODE
at 0 (R103). -/
def respWord (op : BitVec 2) (count : Byte) (changed : Bool) (code : Code) : Word :=
  (op.setWidth 32 <<< 16) ||| (count.setWidth 32 <<< 8) ||| ((BitVec.ofBool changed).setWidth 32 <<< 2) |||
  (codeBits code).setWidth 32

/-- RESP.CODE (R25). -/
def respCode (w : Word) : BitVec 2 := w.extractLsb' 0 2

/-- RESP.CHANGED (R25). -/
def respChanged (w : Word) : Bool := w.getLsbD 2

/-- RESP.COUNT (R25). -/
def respCount (w : Word) : Byte := w.extractLsb' 8 8

/-- RESP.OP (R25). -/
def respOp (w : Word) : BitVec 2 := w.extractLsb' 16 2

/-- RESP[7:3] and RESP[31:18] read 0 (R25). -/
def respReservedZero (w : Word) : Bool := w.extractLsb' 3 5 == 0#5 && w.extractLsb' 18 14 == 0#14

/-- STATUS, computed from the flags it shows, each at its place (R27). -/
def State.statusWord (s : State) : Word :=
  ((BitVec.ofBool s.linesEn).setWidth 32 <<< 9) ||| ((BitVec.ofBool s.drop).setWidth 32 <<< 8) |||
  ((familyBits s.build.family).setWidth 32 <<< 6) ||| ((kindBits s.kind).setWidth 32 <<< 3) |||
  ((BitVec.ofBool s.first).setWidth 32 <<< 2) ||| ((BitVec.ofBool s.initOk).setWidth 32 <<< 1) |||
  (BitVec.ofBool s.busy).setWidth 32

end Sys2Proof.Machine
end

