-- ==== Sys2Proof/Machine/Ops.lean ====
section
/-! DEFINITION. The named operations over host memory and over the state: the primitives of R10, the masking windows
(R251), the acceptance and completion of a command (R100, R101, R103) and reset (R260). The block has no trap entry and no
trap return (R249, R250): `complete` is how an error is reported. -/

namespace Sys2Proof.Machine

/-! ## Host memory -/

/-- The addresses rise strictly: the canonical form of a list of cells. -/
def cellsRise : List Host.Cell → Bool
  | [] => true
  | [_] => true
  | c :: d :: rest => decide (c.1 < d.1) && cellsRise (d :: rest)

/-- The byte listed at an address. -/
def cellsRead : List Host.Cell → Nat → Option Byte
  | [], _ => none
  | c :: rest, a => if c.1 = a then some c.2 else cellsRead rest a

/-- The list with a byte written at an address. -/
def cellsWrite : List Host.Cell → Nat → Byte → List Host.Cell
  | [], a, v => [(a, v)]
  | c :: rest, a, v =>
    if a < c.1 then (a, v) :: c :: rest
    else if a = c.1 then (a, v) :: rest
    else c :: cellsWrite rest a v

/-- The canonical form: strictly rising addresses, all of them inside the 65536 bytes of host memory (R60). An unlisted
address has no value, so no entry can equal one. -/
def Memory.wf (m : Memory) : Bool := cellsRise m.cells && m.cells.all (fun c => decide (c.1 < 65536))

/-- The byte something in the model has written at an address, if any. -/
def Memory.read (m : Memory) (a : Nat) : Option Byte := cellsRead m.cells a

/-- A byte written at an address; host memory accepts every write (R65). -/
def Memory.write (m : Memory) (a : Nat) (v : Byte) : Memory := ⟨cellsWrite m.cells a v⟩

/-- The byte host memory holds: what was written last, or a free value (log 6). -/
def State.hostByte (s : State) (a : Addr) : Byte := (s.mem.read a.toNat).getD (Config.hostMemory a.toNat)

/-! ## The primitives of R10 -/

/-- An event is recorded. -/
def emit (e : Event) (s : State) : State := { s with trace := s.trace ++ [e] }

/-- `Drive(L, lvl)`. -/
def doDrive (d : Drive) (s : State) : State := emit (.drive d) { s with lines := setLine s.lines d }

/-- The least count of a wait: ceil(t × F_CLK_HZ) cycles (R265). -/
def waitCycles (fClkHz us : Nat) : Nat := (us * fClkHz + 999999) / 1000000

/-- `Wait(t)` begins: the event with its minimum, WAIT_CNT loaded with at least the count of R265, and the cycles still to
come as the sequencer's next step (R39). -/
def beginWait (us : Nat) (s : State) : State :=
  emit (.wait us)
    { s with
      waitCnt := waitCycles s.build.fClkHz us + Config.waitSlack s.waits
      waits := s.waits + 1
      fsm := .count :: s.fsm }

/-- One clock cycle of a wait (R39). -/
def waitTick (s : State) : State := { s with waitCnt := s.waitCnt - 1 }

/-- The cycles of a wait, all of them: WAIT_CNT is counted down to 0 (R39). Time is not state (R14). -/
def endWait (s : State) : State := { s with waitCnt := 0 }

/-- `MemWrite((addr + i) mod 2^16, 1, CANON[i])` (R224); what the byte held is kept until the command completes (R70). -/
def doMemWrite (addr : Addr) (i : Fin 3) (s : State) : State :=
  emit (.memWrite (reportAddr addr i) (reportByte s.canon i))
    { s with
      mem := s.mem.write (reportAddr addr i).toNat (reportByte s.canon i)
      oldBytes := ((reportAddr addr i).toNat, s.hostByte (reportAddr addr i)) :: s.oldBytes }

/-! ## Masking windows (R251) -/

/-- `MaskIRQ()`: the window opens. -/
def maskIrq (s : State) : State := emit (.hostIe false) { s with savedIe := s.hostIe, hostIe := false }

/-- `RestoreIRQ()`: the window closes. -/
def restoreIrq (s : State) : State := emit (.hostIe s.savedIe) { s with hostIe := s.savedIe }

/-! ## The life cycle of a command -/

/-- A host write of `w` to CMD: ignored while RST holds the block (R260), dropped while BUSY = 1 (R101), else accepted
(R100). -/
def writeCmd (w : Word) (s : State) : State :=
  if s.rst then s
  else if s.busy then { s with drop := true }
  else { s with cur := w, busy := true, fsm := [.check] }

/-- `Complete(code, changed, count)` (R103). -/
def complete (code : Code) (changed : Bool) (count : Byte) (s : State) : State :=
  { s with
    resp := respWord (fieldOp s.cur) count changed code
    busy := false
    fsm := []
    oldBytes := [] }

/-- What RST makes of a state: every register of the block at its reset value, the lines released, a running command
abandoned; the parameters, HOST_IE, host memory and the outside world are not written (R260; log 21). -/
def holdReset (s : State) : State :=
  { State.reset with
    build := s.build
    hostIe := s.hostIe
    mem := s.mem
    rst := s.rst
    host := s.host
    rdata := s.rdata
    pad := s.pad
    trace := s.trace
    samples := s.samples
    waits := s.waits
    races := s.races }

/-- The level of RST changes; the block holds its reset values while it is asserted and on its release (R260). -/
def setRst (v : Bool) (s : State) : State :=
  if v then
    if s.rst then holdReset s else emit .reset (holdReset { s with rst := true })
  else if s.rst then holdReset { s with rst := false }
  else s

end Sys2Proof.Machine
end

