-- ==== Sys2Proof/Machine/Db9.lean ====
section
/-! DEFINITION. The DB9-multiplexed reader and the controller-type identifier (42_db9_reader_identifier.md). -/

namespace Sys2Proof.Machine

/-- Phase k + 1: `RAW[k] <- zext_8(Sample(BUS))`, after the pin map, in line sense (R152, R153). -/
def samplePhase (k : Fin 5) (s : State) : State :=
  emit (.sampleBus (busLines s.build.pinMap (s.lineAt 0)))
    { s.sampled with
      raw := rawSet s.raw k (zext8 (busLines s.build.pinMap (s.lineAt 0)))
      phase := BitVec.ofNat 3 (k.val + 1) }

/-- Phase 1 as it is, phases 2 to 5 RAW_INVALID (R157). -/
def invalidRest (l : Literals) (r0 : Byte) : Raw := ⟨r0, l.rawInvalid, l.rawInvalid, l.rawInvalid, l.rawInvalid⟩

/-- Phases 2 to 5 marked RAW_INVALID (R157). -/
def invalidatePhases (s : State) : State :=
  { s with raw := invalidRest s.build.literals s.raw.r0 }

/-- A drive of SEL followed by the settle wait (R154). -/
def selSteps (l : Literals) (v : Bool) : List Act := [.drive (.sel v), .wait l.tDb9SettleUs]

/-- A pulse and the sample that follows it: SEL to 1, then to 0, each with its settle (R154). -/
def pulseSteps (l : Literals) (k : Fin 5) : List Act := selSteps l true ++ selSteps l false ++ [.samplePhase k]

/-- The steps of Db9ReadFull: 22 line events (R155, R156). -/
def db9ReadFullSteps (l : Literals) : List Act :=
  selSteps l true ++ [.samplePhase 0] ++ selSteps l false ++ [.samplePhase 1] ++
    pulseSteps l 2 ++ pulseSteps l 3 ++ pulseSteps l 4 ++ [.drive (.sel true)]

/-- The steps of Db9ReadShort: phase 1 only (R157). -/
def db9ReadShortSteps (l : Literals) : List Act := selSteps l true ++ [.samplePhase 0, .invalidatePhases]

/-- The steps of Db9Init up to its return value (R159, R160). -/
def db9InitSteps (l : Literals) : List Act := [.wait (l.tDb9InitMs * 1000)] ++ db9ReadFullSteps l

/-- The value of Identify (R160): MULTITAP, or the kind of the pad. -/
inductive Identity where
  | multiTap
  | pad (k : Kind)
  deriving DecidableEq, Repr

/-- The Start-button bit in phase 2 reads held: RAW[1][5] = 0 (R166). -/
def startHeld (r : Raw) : Bool := !r.r1.getLsbD 5

/-- The classification of a pad by its nibbles, before the Start override (R163 to R165). -/
def classify (l : Literals) (r : Raw) : Kind :=
  if lowNibble r.r0 = l.nibNoConnect ∧ lowNibble r.r1 = l.nibGenLow then
    if lowNibble r.r3 = l.nibGenLow ∧ lowNibble r.r4 = l.nibGenLow then .genesis3 else .genesis6
  else .sms

/-- Identify (R161): the multi-tap test first, then the classification, which a held Start overrides. -/
def identify (l : Literals) (r : Raw) : Identity :=
  if lowNibble r.r0 = l.nibMultitap then .multiTap
  else if startHeld r then .pad .genesis6
  else .pad (classify l r)

end Sys2Proof.Machine
end

