-- ==== Sys2Proof/Machine/Nes.lean ====
section
/-! DEFINITION. The shift-register reader and its timing FSM, NES family (41_shift_register_reader.md). -/

namespace Sys2Proof.Machine

/-- `v <- 0x00` at the start of the bit loop (R133). -/
def clearShift (s : State) : State := { s with shift := 0#8, bitCnt := 0#4 }

/-- `d <- Sample(DATA)`, shifted into v in pressed sense (R133, R134). -/
def sampleData (s : State) : State :=
  emit (.sampleData (dataLine (s.lineAt 0)))
    { s.sampled with shift := shiftIn s.shift (dataLine (s.lineAt 0)), bitCnt := s.bitCnt + 1#4 }

/-- `RAW[0] <- v` (R133). -/
def storeShift (s : State) : State := { s with raw := rawSet s.raw 0 s.shift }

/-- The steps of NesInit (R132). -/
def nesInitSteps (b : Build) : List Act := [.wait b.tInitNesUs]

/-- One turn of the bit loop: five line events (R133, R135). -/
def nesBitSteps (l : Literals) : List Act :=
  [.drive (.clk false), .wait l.tClkSetupUs, .sampleData, .wait l.tClkHoldUs, .drive (.clk true)]

/-- `n` turns of the bit loop. -/
def nesBitsSteps (l : Literals) : Nat → List Act
  | 0 => []
  | n + 1 => nesBitSteps l ++ nesBitsSteps l n

/-- The steps of NesRead: 43 line events (R133, R135). -/
def nesReadSteps (l : Literals) : List Act :=
  [.drive (.latch true), .wait l.tLatchUs, .drive (.latch false), .clearShift] ++
    nesBitsSteps l Config.nesBits ++ [.storeShift]

end Sys2Proof.Machine
end

