-- ==== Sys2Proof/Machine/Tg16.lean ====
section
/-! DEFINITION. The TG16-multiplexed reader (43_tg16_reader.md). -/

namespace Sys2Proof.Machine

/-- `a <- Sample(TBUS)`, bank A (R183). -/
def sampleBankA (s : State) : State :=
  emit (.sampleTbus (tbusLines (s.lineAt 0))) { s.sampled with bankA := tbusLines (s.lineAt 0) }

/-- `b <- Sample(TBUS)`, bank B (R183). -/
def sampleBankB (s : State) : State :=
  emit (.sampleTbus (tbusLines (s.lineAt 0))) { s.sampled with bankB := tbusLines (s.lineAt 0) }

/-- `RAW[0] <- {b, a}` (R184). -/
def storeBanks (s : State) : State := { s with raw := rawSet s.raw 0 (packBanks s.bankA s.bankB) }

/-- The steps of Tg16Init (R182). -/
def tg16InitSteps (b : Build) : List Act := [.wait b.tInitTg16Us]

/-- The steps of Tg16Read: 9 line events (R183). -/
def tg16ReadSteps (l : Literals) : List Act :=
  [.drive (.oe .disable), .wait l.tTg16Us, .drive (.dsel true), .wait l.tTg16Us, .sampleBankA,
    .drive (.dsel false), .wait l.tTg16Us, .sampleBankB, .drive (.oe .enable), .storeBanks]

end Sys2Proof.Machine
end

