-- ==== Sys2Proof/Machine/Init.lean ====
section
/-! DEFINITION. INIT's own steps and its step table (R104, R105). -/

namespace Sys2Proof.Machine

/-- `INIT_OK <- 0; FIRST <- 0; KIND <- NONE` (R104). -/
def clearSession (s : State) : State := { s with initOk := false, first := false, kind := .none }

/-- The OUT registers at the family's idle levels (R104). -/
def setIdleLevels (s : State) : State := { s with lines := idleLines s.build.family s.lines }

/-- `LINES_EN <- 1`: the lines are driven from here on (R37, R104). -/
def enableLines (s : State) : State := emit .idleDrive { s with linesEn := true }

/-- `CANON <- {128, 128, 0x00}` (R104). -/
def neutralCanon (s : State) : State := { s with canon := neutralReport }

/-- `LAST <- {128, 128, 0x00}` (R104). -/
def neutralLast (s : State) : State := { s with last := neutralReport }

/-- `FIRST <- 1` (R104). -/
def setFirst (s : State) : State := { s with first := true }

/-- `INIT_OK <- 1` (R104). -/
def setInitOk (s : State) : State := { s with initOk := true }

/-- What INIT does up to its family's body (R104). -/
def initHeadSteps : List Act := [.maskIrq, .clearSession, .idleLevels, .enableLines]

/-- What a successful INIT does after its family's body (R104). -/
def initOkSteps : List Act :=
  [.neutralCanon, .neutralLast, .setFirst, .setInitOk, .restoreIrq, .complete .ok false 0#8]

/-- What INIT does after a multi-tap (R104, R162). -/
def initFailSteps : List Act := [.restoreIrq, .complete .errMultitap false 0#8]

/-- INIT's branch on Identify: MULTITAP ends the command, a kind is stored and INIT goes on (R104). -/
def branchOnIdentity (s : State) : State :=
  match identify s.build.literals s.raw with
  | .multiTap => { s with fsm := initFailSteps }
  | .pad k => { s with kind := k, fsm := initOkSteps }

/-- INIT's step table (R104, R108). -/
def initSteps (b : Build) : List Act :=
  match b.family with
  | .nes => initHeadSteps ++ nesInitSteps b ++ initOkSteps
  | .tg16 => initHeadSteps ++ tg16InitSteps b ++ initOkSteps
  | .db9 => initHeadSteps ++ db9InitSteps b.literals ++ [.identify]

end Sys2Proof.Machine
end

