-- ==== Sys2Proof/Machine/Translator.lean ====
section
/-! DEFINITION. The bit-to-button LUT translator (44_translator.md). -/

namespace Sys2Proof.Machine

/-- What a table makes of the pressed bits: four directions and the button mask (R190). -/
structure Buttons where
  up : Bool
  down : Bool
  left : Bool
  right : Bool
  btn : Byte
  deriving DecidableEq, Repr

/-- Pressed(FAMILY, RAW) for a DB9 phase: `~RAW[k-1] & 0x3f` (R191). -/
def pressedPhase (r : Byte) : Byte := ~~~r &&& 0x3f#8

/-- Pressed(TG16, RAW): `~RAW[0] & 0xff` (R191). -/
def pressedTg16 (r : Byte) : Byte := ~~~r &&& 0xff#8

/-- Axis quantisation, the minimum direction checked first and the maximum second (R192). -/
def axis (minBit maxBit : Bool) : Byte :=
  let v : Byte := 128#8
  let v := if minBit then 0#8 else v
  let v := if maxBit then 255#8 else v
  v

/-- A button mask from its bits, bit 0 first. -/
def mask (b0 b1 b2 b3 b4 b5 b6 b7 : Bool) : Byte :=
  ((BitVec.ofBool b7).setWidth 8 <<< 7) ||| ((BitVec.ofBool b6).setWidth 8 <<< 6) |||
  ((BitVec.ofBool b5).setWidth 8 <<< 5) ||| ((BitVec.ofBool b4).setWidth 8 <<< 4) |||
  ((BitVec.ofBool b3).setWidth 8 <<< 3) ||| ((BitVec.ofBool b2).setWidth 8 <<< 2) |||
  ((BitVec.ofBool b1).setWidth 8 <<< 1) ||| (BitVec.ofBool b0).setWidth 8

/-- The NES table (R194); `p` is RAW[0], already in pressed sense (R191). -/
def lutNes (p : Byte) : Buttons where
  up := p.getLsbD 3
  down := p.getLsbD 2
  left := p.getLsbD 1
  right := p.getLsbD 0
  btn := mask (p.getLsbD 7) (p.getLsbD 6) (p.getLsbD 5) (p.getLsbD 4) false false false false

/-- The four directions of every DB9 kind, from phase 1, with the kind's mask (R195 to R198). -/
def db9Buttons (p1 btn : Byte) : Buttons where
  up := p1.getLsbD 0
  down := p1.getLsbD 1
  left := p1.getLsbD 2
  right := p1.getLsbD 3
  btn := btn

/-- The Atari table (R195). -/
def lutAtari (p1 : Byte) : Buttons :=
  db9Buttons p1 (mask false (p1.getLsbD 4) false false false false false false)

/-- The SMS table (R196). -/
def lutSms (p1 : Byte) : Buttons :=
  db9Buttons p1 (mask false (p1.getLsbD 4) (p1.getLsbD 5) false false false false false)

/-- The Genesis-3 table (R197). -/
def lutGenesis3 (p1 p2 : Byte) : Buttons :=
  db9Buttons p1
    (mask false (p1.getLsbD 4) (p1.getLsbD 5) false (p2.getLsbD 4) false false (p2.getLsbD 5))

/-- The Genesis-6 table (R198): {Y, B, C, Z, A, Mode, X, Start} from bit 0 to bit 7. -/
def lutGenesis6 (p1 p2 p5 : Byte) : Buttons :=
  db9Buttons p1
    (mask (p5.getLsbD 1) (p1.getLsbD 4) (p1.getLsbD 5) (p5.getLsbD 0)
      (p2.getLsbD 4) (p5.getLsbD 3) (p5.getLsbD 2) (p2.getLsbD 5))

/-- The TG16 table (R199). -/
def lutTg16 (p : Byte) : Buttons where
  up := p.getLsbD 0
  right := p.getLsbD 1
  down := p.getLsbD 2
  left := p.getLsbD 3
  btn := mask (p.getLsbD 4) (p.getLsbD 5) (p.getLsbD 6) (p.getLsbD 7) false false false false

/-- The three bytes of the canonical state (R190, R192). -/
def canonOf (b : Buttons) : Report := ⟨axis b.left b.right, axis b.up b.down, b.btn⟩

/-- Translate (R190). FAMILY = DB9 with KIND = NONE is left undefined by R201: a free value (log 13). -/
def translateRaw (f : Family) (k : Kind) (r : Raw) : Report :=
  match f, k with
  | .nes, _ => canonOf (lutNes r.r0)
  | .tg16, _ => canonOf (lutTg16 (pressedTg16 r.r0))
  | .db9, .none => Config.unstatedTranslation r
  | .db9, .atari => canonOf (lutAtari (pressedPhase r.r0))
  | .db9, .sms => canonOf (lutSms (pressedPhase r.r0))
  | .db9, .genesis3 => canonOf (lutGenesis3 (pressedPhase r.r0) (pressedPhase r.r1))
  | .db9, .genesis6 => canonOf (lutGenesis6 (pressedPhase r.r0) (pressedPhase r.r1) (pressedPhase r.r4))

end Sys2Proof.Machine
end

