-- ==== Sys2Proof/Machine/Poll.lean ====
section
/-! DEFINITION. POLL's own step and its step table (R107, R108). -/

namespace Sys2Proof.Machine

/-- `CANON <- Translate(FAMILY, KIND, RAW)`, all three bytes in one step (R107, R190). -/
def storeTranslation (s : State) : State := { s with canon := translateRaw s.build.family s.kind s.raw }

/-- The read sequence POLL runs, fixed by FAMILY and, for DB9, by KIND (R108). -/
def readSteps (b : Build) (k : Kind) : List Act :=
  match b.family with
  | .nes => nesReadSteps b.literals
  | .tg16 => tg16ReadSteps b.literals
  | .db9 => if k = .atari ∨ k = .sms then db9ReadShortSteps b.literals else db9ReadFullSteps b.literals

/-- POLL's step table (R107): a DB9 read runs inside a masking window, the others do not. -/
def pollSteps (b : Build) (k : Kind) : List Act :=
  match b.family with
  | .db9 => [.maskIrq] ++ readSteps b k ++ [.restoreIrq, .translate, .complete .ok false 0#8]
  | .nes => readSteps b k ++ [.translate, .complete .ok false 0#8]
  | .tg16 => readSteps b k ++ [.translate, .complete .ok false 0#8]

end Sys2Proof.Machine
end

