-- ==== Sys2Proof/Machine/Reports.lean ====
section
/-! DEFINITION. The change detector and the report builder: HAS_CHANGED and BUILD_REPORT, their own steps and their step
tables (45_report_formatter.md). RID is accepted and ignored (R226): no step reads it. -/

namespace Sys2Proof.Machine

/-- HAS_CHANGED's result: `FIRST or Differs(CANON, LAST)` (R223). -/
def changedNow (s : State) : Bool := s.first || differs s.canon s.last

/-- `c <- FIRST or Differs(CANON, LAST)`, carried into the steps that follow: `FIRST <- 0; Complete(OK, c, 0)` (R223). -/
def compareReports (s : State) : State :=
  { s with fsm := [.clearFirst, .complete .ok (changedNow s) 0#8] }

/-- `FIRST <- 0` (R223). -/
def clearFirst (s : State) : State := { s with first := false }

/-- `LAST[0..2] <- CANON[0..2]` (R224). -/
def copyLast (s : State) : State := { s with last := s.canon }

/-- HAS_CHANGED's step table (R223). -/
def hasChangedSteps : List Act := [.compare]

/-- The last steps of BUILD_REPORT, whatever BUF is (R224). -/
def emitReportSteps : List Act := [.copyLast, .complete .ok false (BitVec.ofNat 8 Config.reportLen)]

/-- BUILD_REPORT's step table with a buffer: the bytes in ascending order (R70, R224). -/
def buildReportSteps (addr : Addr) : List Act :=
  [.memWrite addr 0, .memWrite addr 1, .memWrite addr 2] ++ emitReportSteps

/-- BUILD_REPORT's step table with the null buffer: LAST is updated all the same (R224). -/
def buildReportNullSteps : List Act := emitReportSteps

end Sys2Proof.Machine
end

