-- ==== Sys2Proof/Machine/Sequencer.lean ====
section
/-! DEFINITION. The sequencer: the checks before execution (R102), one step of the running command (R22), and the steps
taken until the command completes or the next host operation lands (log 7). -/

namespace Sys2Proof.Machine

/-- POLL, HAS_CHANGED and BUILD_REPORT complete with ERR_NOT_INIT while INIT_OK = 0 (R102). -/
def needsInit : Instr → Bool
  | .init => false
  | .poll => true
  | .hasChanged _ => true
  | .buildReport _ _ => true
  | .buildReportNull _ => true

/-- The step table of a command (R104, R107, R223, R224). -/
def stepsOf (i : Instr) (s : State) : List Act :=
  match i with
  | .init => initSteps s.build
  | .poll => pollSteps s.build s.kind
  | .hasChanged _ => hasChangedSteps
  | .buildReport _ addr => buildReportSteps addr
  | .buildReportNull _ => buildReportNullSteps

/-- The steps a command word comes to, after the checks in their order (R102). -/
def checkedSteps (s : State) : List Act :=
  match decode s.cur with
  | .error _ => [.complete .errIllegal false 0#8]
  | .ok i => if needsInit i && !s.initOk then [.complete .errNotInit false 0#8] else stepsOf i s

/-- The effect of one step of the sequencer. -/
def doAct (a : Act) (s : State) : State :=
  match a with
  | .check => { s with fsm := checkedSteps s }
  | .complete code changed n => complete code changed n s
  | .maskIrq => maskIrq s
  | .restoreIrq => restoreIrq s
  | .clearSession => clearSession s
  | .idleLevels => setIdleLevels s
  | .enableLines => enableLines s
  | .drive d => doDrive d s
  | .wait us => beginWait us s
  | .count => endWait s
  | .clearShift => clearShift s
  | .sampleData => sampleData s
  | .storeShift => storeShift s
  | .samplePhase k => samplePhase k s
  | .invalidatePhases => invalidatePhases s
  | .sampleBankA => sampleBankA s
  | .sampleBankB => sampleBankB s
  | .storeBanks => storeBanks s
  | .identify => branchOnIdentity s
  | .neutralCanon => neutralCanon s
  | .neutralLast => neutralLast s
  | .setFirst => setFirst s
  | .setInitOk => setInitOk s
  | .translate => storeTranslation s
  | .compare => compareReports s
  | .clearFirst => clearFirst s
  | .memWrite addr i => doMemWrite addr i s
  | .copyLast => copyLast s

/-- One step of the running command; IDLE does nothing (R22, R256). -/
def fsmStep (s : State) : State :=
  match s.fsm with
  | [] => s
  | a :: rest => doAct a { s with fsm := rest }

/-- At most `n` steps of the running command. -/
def runFor : Nat → State → State
  | 0, s => s
  | n + 1, s =>
    match s.fsm with
    | [] => s
    | _ :: _ => runFor n (fsmStep s)

/-- How many steps the sequencer takes before the next host operation lands; with none waiting, enough for any command. -/
def State.budget (s : State) : Nat :=
  match s.host with
  | [] => Config.maxSteps
  | a :: _ => a.after

/-- The running command goes on until it completes or the next host operation lands. -/
def run (s : State) : State := runFor s.budget s

/-- The host writes a command word to CMD, and the block runs on. -/
def issue (w : Word) (s : State) : State := run (writeCmd w s)

end Sys2Proof.Machine
end

