-- ==== Sys2Proof/Machine/Commands.lean ====
section
/-! DEFINITION. The meaning of each command: its word is written to CMD (R100, R101), and the block runs its step table
(R104, R107, R223, R224) to completion or until the next host operation lands. -/

namespace Sys2Proof.Machine

/-- INIT (R104). -/
def execInit (s : State) : Host.Outcome State Fault Refusal := .next (issue (encode .init) s)

/-- POLL (R107). -/
def execPoll (s : State) : Host.Outcome State Fault Refusal := .next (issue (encode .poll) s)

/-- HAS_CHANGED (R223). -/
def execHasChanged (rid : Byte) (s : State) : Host.Outcome State Fault Refusal :=
  .next (issue (encode (.hasChanged rid)) s)

/-- BUILD_REPORT with a buffer (R224). -/
def execBuildReport (rid : Byte) (addr : Addr) (s : State) : Host.Outcome State Fault Refusal :=
  .next (issue (encode (.buildReport rid addr)) s)

/-- BUILD_REPORT with the null buffer (R224). -/
def execBuildReportNull (rid : Byte) (s : State) : Host.Outcome State Fault Refusal :=
  .next (issue (encode (.buildReportNull rid)) s)

end Sys2Proof.Machine
end

