-- ==== Sys2Proof/Machine/Dispatch.lean ====
section
/-! DEFINITION. One arm per command of spec/opcode_table.json. -/

namespace Sys2Proof.Machine

/-- The meaning of a command. -/
def exec (i : Instr) (s : State) : Host.Outcome State Fault Refusal :=
  match i with
  | .init => Sys2Proof.Machine.execInit s
  | .poll => Sys2Proof.Machine.execPoll s
  | .hasChanged rid => Sys2Proof.Machine.execHasChanged rid s
  | .buildReport rid addr => Sys2Proof.Machine.execBuildReport rid addr s
  | .buildReportNull rid => Sys2Proof.Machine.execBuildReportNull rid s

end Sys2Proof.Machine
end

