-- ==== Sys2Proof/Machine/HostPort.lean ====
section
/-! DEFINITION. The host's side: what each host operation does when it lands (R24 to R27, R60 to R62, R66, R70, R74, R260),
and the operations a host program's line stands for (R89, R90). -/

namespace Sys2Proof.Machine

/-- The value a read of a register index returns (R24, R25, R27, R61). -/
def regRead (index : BitVec 2) (s : State) : Word :=
  if index = 1#2 then s.resp
  else if index = 2#2 then s.statusWord
  else 0x00000000#32

/-- What a byte of the running BUILD_REPORT's buffer may read as: its old value and its new one (R70). A byte the host itself
has stored since the block wrote it reads as the host's byte or as the report byte: the spec is silent on that case, and
this is the model's choice (DESIGN CHOICE, log 26). -/
def racingByte (addr : Addr) (s : State) : Option (Byte × Byte) :=
  if s.busy && s.initOk then
    match decode s.cur with
    | .ok (.buildReport _ buf) =>
      if addr = reportAddr buf 0 then some ((cellsRead s.oldBytes addr.toNat).getD (s.hostByte addr), s.canon.x)
      else if addr = reportAddr buf 1 then some ((cellsRead s.oldBytes addr.toNat).getD (s.hostByte addr), s.canon.y)
      else if addr = reportAddr buf 2 then some ((cellsRead s.oldBytes addr.toNat).getD (s.hostByte addr), s.canon.btn)
      else none
    | .ok _ => none
    | .error _ => none
  else none

/-- A host read of a register: no effect but the data returned (R66). -/
def hostReadReg (index : BitVec 2) (s : State) : State := { s with rdata := regRead index s }

/-- A host read of a byte of host memory: what it holds, or, of a buffer being written, its old or its new value (R70). -/
def hostReadMem (addr : Addr) (s : State) : State :=
  match racingByte addr s with
  | none => { s with rdata := (s.hostByte addr).setWidth 32 }
  | some (old, new) =>
    { s with rdata := (if Config.readsNew s.races then new else old).setWidth 32, races := s.races + 1 }

/-- A host write of a byte of host memory (R74). What the byte held before a running BUILD_REPORT wrote it is forgotten: a
racing read no longer returns it (the model's choice, DESIGN CHOICE, log 26). -/
def hostWriteMem (addr : Addr) (v : Byte) (s : State) : State :=
  { s with
    mem := s.mem.write addr.toNat v
    oldBytes := s.oldBytes.filter fun c => c.1 != addr.toNat }

/-- A host write of HOST_IE; inside a masking window its close writes SAVED_IE over it (R267; log 12). -/
def hostWriteIe (v : Bool) (s : State) : State := { s with hostIe := v }

/-- A word written to CMD: the command it decodes to, or an illegal word, which is accepted and completes with
ERR_ILLEGAL (R87). -/
def command (w : Word) (s : State) : Host.Outcome State Fault Refusal :=
  match decode w with
  | .ok i => exec i s
  | .error _ => .next (issue w s)

/-- A host operation lands, and the block runs on. A write of an index other than CMD is ignored (R25, R27, R61). -/
def serve (op : HostOp) (s : State) : Host.Outcome State Fault Refusal :=
  match op with
  | .writeReg index w => if index = 0#2 then command w s else .next (run s)
  | .readReg index => .next (run (hostReadReg index s))
  | .narrowAccess => .refused .narrowAccess
  | .readMem addr => .next (run (hostReadMem addr s))
  | .writeMem addr v => .next (run (hostWriteMem addr v s))
  | .writeIe v => .next (run (hostWriteIe v s))
  | .setRst v => .next (run (setRst v s))

/-- The next host operation lands; with none, the block runs on by itself, or waits in IDLE (R261). -/
def serveNext (s : State) : Host.Outcome State Fault Refusal :=
  match s.host with
  | [] => .next (run s)
  | a :: rest => serve a.op { s with host := rest }

/-- The host operations of a program line (R89, R90), each issued at once after the one before; `waitidle` is its last
read of STATUS, which lands when the command has completed (log 17). -/
def lineArrivals (l : AsmLine) : Option (List Arrival) :=
  match l with
  | .wr c => (assemble c).map fun w => [⟨0, .writeReg 0#2 w⟩]
  | .rdResp => some [⟨0, .readReg 1#2⟩]
  | .rdStatus => some [⟨0, .readReg 2#2⟩]
  | .waitidle => some [⟨Config.maxSteps, .readReg 2#2⟩]
  | .cmd c => (assemble c).map fun w => [⟨0, .writeReg 0#2 w⟩, ⟨Config.maxSteps, .readReg 2#2⟩]

/-- The host operations of a program: its lines in order; none if an operand of one is out of range (R89). -/
def programArrivals : List AsmLine → Option (List Arrival)
  | [] => some []
  | l :: rest =>
    match lineArrivals l, programArrivals rest with
    | some a, some b => some (a ++ b)
    | _, _ => none

end Sys2Proof.Machine
end

