-- ==== Sys2Proof/Machine/Step.lean ====
section
/-! DEFINITION. One step of the machine: the next host operation lands, and the block runs on until its command completes
or the one after lands (log 7). A command word is fetched from the host's write to CMD; there is no instruction memory (R60). -/

namespace Sys2Proof.Machine

/-- One step. -/
def step (s : State) : Host.Outcome State Fault Refusal := serveNext s

/-- `s` with a command word as the host's next write to CMD, and the block ready to accept it (log 18). -/
def State.withFetchWord (s : State) (nbits w : Nat) : State :=
  { s with
    rst := false
    busy := false
    fsm := []
    host := ⟨0, .writeReg 0#2 (BitVec.ofNat 32 (w % 2 ^ nbits))⟩ :: s.host }

end Sys2Proof.Machine
end

