-- ==== Sys2Proof/Safety.lean ====
section
/-! DEFINITION. The terms claims are stated in: when a command runs undisturbed, the events and samples of the read
sequences as the spec's tables list them, and the invariants of the machine. -/

namespace Sys2Proof.Machine

/-- The block can accept a command, and no host operation lands before the command ends. -/
def State.ready (s : State) : Prop := s.rst = false ∧ s.busy = false ∧ Config.maxSteps ≤ s.budget

/-! ## What the read sequences see and do -/

/-- The `k`-th DATA sample from `s` on (R133). -/
def State.dataAt (s : State) (k : Nat) : BitVec 1 := dataLine (s.lineAt k)

/-- The `k`-th BUS sample from `s` on, after the pin map (R152). -/
def State.busAt (s : State) (k : Nat) : BitVec 6 := busLines s.build.pinMap (s.lineAt k)

/-- The `k`-th TBUS sample from `s` on (R183). -/
def State.tbusAt (s : State) (k : Nat) : BitVec 4 := tbusLines (s.lineAt k)

/-- `1 - d` of a sample d: 1 exactly when it reads 0, pressed (R134). -/
def pressedBit (d : BitVec 1) : Byte := if d = 0#1 then 1#8 else 0#8

/-- RAW[0] of the NES read, the sum of (1 - d_k) << (8 - k): the first sample in bit 7, the eighth in bit 0 (R134). -/
def nesByte (d : Nat → BitVec 1) : Byte :=
  (pressedBit (d 0) <<< 7) ||| (pressedBit (d 1) <<< 6) ||| (pressedBit (d 2) <<< 5) ||| (pressedBit (d 3) <<< 4) |||
  (pressedBit (d 4) <<< 3) ||| (pressedBit (d 5) <<< 2) ||| (pressedBit (d 6) <<< 1) ||| pressedBit (d 7)

/-- The five bytes of the full DB9 read (R153). -/
def db9FullRaw (b : Nat → BitVec 6) : Raw := ⟨zext8 (b 0), zext8 (b 1), zext8 (b 2), zext8 (b 3), zext8 (b 4)⟩

/-- The five bytes of the short DB9 read (R157). -/
def db9ShortRaw (l : Literals) (b : BitVec 6) : Raw :=
  ⟨zext8 b, l.rawInvalid, l.rawInvalid, l.rawInvalid, l.rawInvalid⟩

/-- Steps 5k - 1 to 5k + 3 of the timing FSM (R135). -/
def nesBitEvents (l : Literals) (d : BitVec 1) : List Event :=
  [.drive (.clk false), .wait l.tClkSetupUs, .sampleData d, .wait l.tClkHoldUs, .drive (.clk true)]

/-- The 43 line events of NesRead (R135). -/
def nesReadEvents (l : Literals) (d : Nat → BitVec 1) : List Event :=
  [.drive (.latch true), .wait l.tLatchUs, .drive (.latch false)] ++
    (nesBitEvents l (d 0) ++ nesBitEvents l (d 1) ++ nesBitEvents l (d 2) ++ nesBitEvents l (d 3) ++
      nesBitEvents l (d 4) ++ nesBitEvents l (d 5) ++ nesBitEvents l (d 6) ++ nesBitEvents l (d 7))

/-- The 22 line events of Db9ReadFull (R156). -/
def db9FullEvents (l : Literals) (b : Nat → BitVec 6) : List Event :=
  [.drive (.sel true), .wait l.tDb9SettleUs, .sampleBus (b 0),
    .drive (.sel false), .wait l.tDb9SettleUs, .sampleBus (b 1),
    .drive (.sel true), .wait l.tDb9SettleUs, .drive (.sel false), .wait l.tDb9SettleUs, .sampleBus (b 2),
    .drive (.sel true), .wait l.tDb9SettleUs, .drive (.sel false), .wait l.tDb9SettleUs, .sampleBus (b 3),
    .drive (.sel true), .wait l.tDb9SettleUs, .drive (.sel false), .wait l.tDb9SettleUs, .sampleBus (b 4),
    .drive (.sel true)]

/-- The 3 line events of Db9ReadShort (R157). -/
def db9ShortEvents (l : Literals) (b : BitVec 6) : List Event := [.drive (.sel true), .wait l.tDb9SettleUs, .sampleBus b]

/-- The 9 line events of Tg16Read (R183). -/
def tg16ReadEvents (l : Literals) (a b : BitVec 4) : List Event :=
  [.drive (.oe .disable), .wait l.tTg16Us, .drive (.dsel true), .wait l.tTg16Us, .sampleTbus a,
    .drive (.dsel false), .wait l.tTg16Us, .sampleTbus b, .drive (.oe .enable)]

/-- The sum of the minimum waits of a list of events, in microseconds (R272). -/
def minimumUs : List Event → Nat
  | [] => 0
  | .wait us :: rest => us + minimumUs rest
  | _ :: rest => minimumUs rest

/-! ## Invariants -/

/-- The steps that end a table: what follows them is put in place by the step itself, or the command is over. -/
def endsTable : Act → Bool
  | .check => true
  | .complete _ _ _ => true
  | .identify => true
  | .compare => true
  | _ => false

/-- Only the last step still to be taken ends a table. -/
def properSteps : List Act → Bool
  | [] => true
  | [a] => endsTable a
  | a :: b :: rest => !endsTable a && properSteps (b :: rest)

/-- How many sequencer steps a step may still cost, with everything it puts in place. -/
def stepCost : Act → Nat
  | .check => 100
  | .identify => 10
  | .compare => 5
  | .wait _ => 2
  | _ => 1

/-- How many sequencer steps a list of steps may still cost. -/
def stepsCost : List Act → Nat
  | [] => 0
  | a :: rest => stepCost a + stepsCost rest

/-- STATUS.BUSY = 1 exactly while the sequencer runs a command, the command's steps come to a completion within the bound
of one model step (R22, R27, R103), and old buffer bytes are kept only while a command runs. -/
def Sequenced (s : State) : Prop :=
  (s.busy = true ↔ s.fsm ≠ []) ∧ properSteps s.fsm = true ∧ stepsCost s.fsm ≤ Config.maxSteps ∧
  (s.fsm = [] → s.oldBytes = [])

/-- KIND is a value an identification can give (R31, R167), NONE outside DB9, and of a DB9 instance that is initialised, or
about to be, or about to translate, it is not NONE (R201). -/
def KindLegal (s : State) : Prop :=
  s.kind ≠ .atari ∧
  (s.build.family ≠ .db9 → s.kind = .none) ∧
  (.identify ∈ s.fsm → s.build.family = .db9) ∧
  (s.build.family = .db9 → s.initOk = true ∨ .setInitOk ∈ s.fsm ∨ .translate ∈ s.fsm → s.kind ≠ .none) ∧
  (s.build.family = .db9 → .clearSession ∈ s.fsm → .setInitOk ∉ s.fsm ∧ .translate ∉ s.fsm)

/-- An axis byte is 0, 128 or 255 (R193). -/
def axisLegal (b : Byte) : Prop := b = 0#8 ∨ b = 128#8 ∨ b = 255#8

/-- Both axes of a report are legal (R34). -/
def axesLegal (r : Report) : Prop := axisLegal r.x ∧ axisLegal r.y

/-- KIND is legal, and CANON's and LAST's axes are (R34, R193). -/
def ReportsLegal (s : State) : Prop := KindLegal s ∧ axesLegal s.canon ∧ axesLegal s.last

/-- The output registers once the drives of a list of steps have been made. -/
def linesAfter (f : Family) : List Act → Lines → Lines
  | [], l => l
  | .drive d :: rest, l => linesAfter f rest (setLine l d)
  | .idleLevels :: rest, l => linesAfter f rest (idleLines f l)
  | _ :: rest, l => linesAfter f rest l

/-- The family's lines are at their idle levels (R131, R151, R181). -/
def linesIdle (f : Family) (l : Lines) : Prop :=
  match f with
  | .nes => l.latch = false ∧ l.clk = true
  | .db9 => l.sel = true
  | .tg16 => l.oe = .enable ∧ l.dsel = false

/-- Once driven, the family's lines are left at their idle levels by every command: the drives still to come end there. -/
def LinesSettle (s : State) : Prop :=
  Sequenced s ∧
  (s.linesEn = true ∨ .enableLines ∈ s.fsm →
    linesIdle s.build.family (linesAfter s.build.family s.fsm s.lines))

/-- A list of steps that starts inside a masking window (`true`) or outside one: no window opens inside another, and every
window closes before the command completes (R251). -/
def windowShape : Bool → List Act → Bool
  | w, [] => !w
  | w, .maskIrq :: rest => !w && windowShape true rest
  | w, .restoreIrq :: rest => w && windowShape false rest
  | w, .identify :: _ => w
  | w, .check :: _ => !w
  | w, .compare :: _ => !w
  | w, .complete _ _ _ :: _ => !w
  | w, _ :: rest => windowShape w rest

/-- The steps still to be taken nest no masking window and close the one that is open (R251). -/
def WindowsClose (s : State) : Prop := ∃ w, windowShape w s.fsm = true

/-- The values after reset that the spec gives (R260): FSM, RESP, STATUS's flags, WAIT_CNT, and the lines released. -/
def ResetValued (s : State) : Prop :=
  s.fsm = [] ∧ s.resp = 0x00000000#32 ∧ s.busy = false ∧ s.initOk = false ∧ s.first = false ∧ s.kind = .none ∧
  s.drop = false ∧ s.linesEn = false ∧ s.drivenLines = [] ∧ s.waitCnt = 0

/-- While RST is asserted the block holds its reset values (R260). -/
def RstHolds (s : State) : Prop := s.rst = true → s = holdReset s

/-- Host memory is in its canonical form. -/
def MemoryCanonical (s : State) : Prop := s.mem.wf = true

/-- RESP's reserved bits read 0 (R25). -/
def RespReservedZero (s : State) : Prop := respReservedZero s.resp = true

end Sys2Proof.Machine
end

