-- ==== Sys2Proof/Certificates/Slice0/Obligations.lean ====
section
/-! DEFINITION. The statements for the provers, each with the rules of spec/ it formalises. -/

open Sys2Proof Sys2Proof.Machine

/-! ## Encoding -/

/-- R86, R88: decoding the word of any command, with any operand values, gives the command back. -/
def Obligations.DecodeOfEncodeIsTheCommand : Prop := ∀ i : Instr, decode (encode i) = .ok i

/-- R86, R88: a word that decodes to a command is that command's word, so no two words mean the same command. -/
def Obligations.DecodedWordIsTheCommandsWord : Prop := ∀ (w : Word) (i : Instr), decode w = .ok i → encode i = w

/-- R86: a word matches a row's pattern exactly when it decodes to the row's command, with the free fields as operands; a
word that matches none of the five is illegal, and so is every word whose low three bits are 100, 101 or 110. -/
def Obligations.PatternsDecodeToTheirCommands : Prop :=
  ∀ w : Word,
    (w &&& 0xFFFFFFFF#32 = 0x00000000#32 ↔ decode w = .ok .init) ∧
    (w &&& 0xFFFFFFFF#32 = 0x00000001#32 ↔ decode w = .ok .poll) ∧
    (w &&& 0xFFFF00FF#32 = 0x00000002#32 ↔ decode w = .ok (.hasChanged (w.extractLsb' 8 8))) ∧
    (w &&& 0x000000FF#32 = 0x00000007#32 ↔ decode w = .ok (.buildReport (w.extractLsb' 8 8) (w.extractLsb' 16 16))) ∧
    (w &&& 0xFFFF00FF#32 = 0x00000003#32 ↔ decode w = .ok (.buildReportNull (w.extractLsb' 8 8))) ∧
    ((∃ e, decode w = .error e) ↔
      ¬ (w &&& 0xFFFFFFFF#32 = 0x00000000#32 ∨ w &&& 0xFFFFFFFF#32 = 0x00000001#32 ∨
         w &&& 0xFFFF00FF#32 = 0x00000002#32 ∨ w &&& 0x000000FF#32 = 0x00000007#32 ∨
         w &&& 0xFFFF00FF#32 = 0x00000003#32)) ∧
    (w.extractLsb' 0 3 = 0b100#3 ∨ w.extractLsb' 0 3 = 0b101#3 ∨ w.extractLsb' 0 3 = 0b110#3 → ∃ e, decode w = .error e)

/-- R86: some words written out from the patterns decode to the commands they stand for (95_test_vectors.md E1 to E10). -/
def Obligations.SpecWordsDecode : Prop :=
  decode 0x00000000#32 = .ok .init ∧ decode 0x00000001#32 = .ok .poll ∧
  decode 0x0000FF02#32 = .ok (.hasChanged 0xFF#8) ∧ decode 0x00004203#32 = .ok (.buildReportNull 0x42#8) ∧
  decode 0xFFFFFF07#32 = .ok (.buildReport 0xFF#8 0xFFFF#16)

/-- R89, R90: the words the assembler makes of operands in range, the expansions of the pseudo-instructions, and the
rejection of an operand out of range. -/
def Obligations.AssemblerWords : Prop :=
  assemble .init = some 0x00000000#32 ∧ assemble .poll = some 0x00000001#32 ∧
  (∀ rid : Byte, assemble (.haschg rid.toNat) = some (0x00000002#32 ||| (rid.setWidth 32 <<< 8))) ∧
  (∀ (rid : Byte) (addr : Addr), assemble (.build rid.toNat addr.toNat) =
    some (0x00000007#32 ||| (rid.setWidth 32 <<< 8) ||| (addr.setWidth 32 <<< 16))) ∧
  (∀ rid : Byte, assemble (.buildNull rid.toNat) = some (0x00000003#32 ||| (rid.setWidth 32 <<< 8))) ∧
  (∀ w : Word, assemble (.word w.toNat) = some w) ∧
  assemble .haschgZero = assemble (.haschg 0) ∧ (∀ addr, assemble (.buildAt addr) = assemble (.build 0 addr)) ∧
  assemble .sync = assemble (.buildNull 0) ∧
  (∀ rid ≥ 256, assemble (.haschg rid) = none ∧ assemble (.buildNull rid) = none ∧
    ∀ addr, assemble (.build rid addr) = none) ∧
  (∀ addr ≥ 65536, ∀ rid, assemble (.build rid addr) = none)

/-! ## A step and the life cycle of a command -/

/-- R74, R88, R100: when the next host operation writes a word to CMD that decodes to a command, the step is the command's
meaning, that operation taken off the list. -/
def Obligations.StepRunsTheDecodedCommand : Prop :=
  ∀ (s : State) (n : Nat) (w : Word) (rest : List Arrival) (i : Instr),
    s.host = ⟨n, .writeReg 0#2 w⟩ :: rest → decode w = .ok i → step s = exec i { s with host := rest }

/-- R261: with no command running and no host operation waiting, a step leaves everything as it is. -/
def Obligations.IdleBlockWaits : Prop := ∀ s : State, s.fsm = [] → s.host = [] → step s = .next s

/-- R100: accepting any word sets CUR and BUSY and moves FSM to the checks, and changes nothing else (seen by letting the
next host operation land at once, log 7). -/
def Obligations.AcceptanceChangesCurBusyAndFsm : Prop :=
  ∀ (s : State) (n : Nat) (w : Word) (op : HostOp) (rest : List Arrival),
    s.host = ⟨n, .writeReg 0#2 w⟩ :: ⟨0, op⟩ :: rest → s.rst = false → s.busy = false →
    step s = .next { s with host := ⟨0, op⟩ :: rest, cur := w, busy := true, fsm := [.check] }

/-- R101, R244: any word written to CMD while BUSY = 1 is dropped: DROP is set, and the running command comes to exactly
what it would have come to. -/
def Obligations.BusyCommandIsDropped : Prop :=
  ∀ (s : State) (n : Nat) (w : Word) (rest : List Arrival),
    s.host = ⟨n, .writeReg 0#2 w⟩ :: rest → s.rst = false → s.busy = true →
    step s = .next { run { s with host := rest } with drop := true }

/-- R87, R102, R243, R248: an illegal word written to CMD completes with ERR_ILLEGAL and OP = w[1:0], whatever INIT_OK is,
and changes nothing but CUR and RESP. -/
def Obligations.IllegalWordCompletesWithErrIllegal : Prop :=
  ∀ (s : State) (n : Nat) (w : Word) (e : IllegalWord), ({ s with host := s.host.tail } : State).ready →
    s.host.head? = some ⟨n, .writeReg 0#2 w⟩ → decode w = .error e →
    step s = .next { s with
      host := s.host.tail, cur := w, resp := respWord (fieldOp w) 0#8 false .errIllegal, fsm := [], oldBytes := [] }

/-- R102, R242: a POLL, HAS_CHANGED or BUILD_REPORT while INIT_OK = 0 completes with ERR_NOT_INIT and its OP, and changes
nothing but CUR and RESP. -/
def Obligations.CommandBeforeInitCompletesWithErrNotInit : Prop :=
  ∀ (i : Instr) (s : State), i ≠ .init → s.ready → s.initOk = false →
    exec i s = .next { s with
      cur := encode i, resp := respWord (fieldOp (encode i)) 0#8 false .errNotInit, fsm := [], oldBytes := [] }

/-- R23, R103: a running command, left alone by the host, comes to its completion: BUSY is 0 and FSM is IDLE. That it does so
within one step of the model rests on the model's choices of log 7 and log 23. -/
def Obligations.RunningCommandCompletes : Prop :=
  ∀ s : State, Sequenced s → s.host = [] → ∃ t, step s = .next t ∧ t.busy = false ∧ t.fsm = []

/-- R103: a completion writes RESP with the code, the changed bit, the count and the operation at their places, clears BUSY
and returns FSM to IDLE. -/
def Obligations.CompletionWritesResp : Prop :=
  ∀ (code : Code) (changed : Bool) (n : Byte) (s : State),
    respCode (complete code changed n s).resp = codeBits code ∧
    respChanged (complete code changed n s).resp = changed ∧
    respCount (complete code changed n s).resp = n ∧
    respOp (complete code changed n s).resp = s.cur.extractLsb' 0 2 ∧
    (complete code changed n s).busy = false ∧ (complete code changed n s).fsm = []

/-! ## INIT

The next states below name every field a command writes. The fields `pad`, `samples`, `waits`, `oldBytes`, `trace`, `bitCnt`,
`phase`, `shift`, `bankA` and `bankB` are the model's form of the samples, the waits and the events (log 5, 8, 9, 10, 11). -/

/-- R104, R105, R132: INIT of a NES instance, run undisturbed, completes: its whole next state. -/
def Obligations.InitNesNextState : Prop :=
  ∀ s : State, s.ready → s.build.family = .nes →
    exec .init s = .next { s with
      cur := 0x00000000#32, resp := 0x00000000#32, fsm := []
      initOk := true, first := true, kind := .none, linesEn := true
      canon := ⟨128#8, 128#8, 0#8⟩, last := ⟨128#8, 128#8, 0#8⟩
      lines := { s.lines with latch := false, clk := true }
      savedIe := s.hostIe, waitCnt := 0, waits := s.waits + 1, oldBytes := []
      trace := s.trace ++ [.hostIe false, .idleDrive, .wait s.build.tInitNesUs, .hostIe s.hostIe] }

/-- R104, R105, R182: INIT of a TG16 instance, run undisturbed, completes: its whole next state. -/
def Obligations.InitTg16NextState : Prop :=
  ∀ s : State, s.ready → s.build.family = .tg16 →
    exec .init s = .next { s with
      cur := 0x00000000#32, resp := 0x00000000#32, fsm := []
      initOk := true, first := true, kind := .none, linesEn := true
      canon := ⟨128#8, 128#8, 0#8⟩, last := ⟨128#8, 128#8, 0#8⟩
      lines := { s.lines with oe := .enable, dsel := false }
      savedIe := s.hostIe, waitCnt := 0, waits := s.waits + 1, oldBytes := []
      trace := s.trace ++ [.hostIe false, .idleDrive, .wait s.build.tInitTg16Us, .hostIe s.hostIe] }

/-- R104, R105, R159, R160: INIT of a DB9 instance that identifies a pad, run undisturbed, completes: its whole next
state. -/
def Obligations.InitDb9NextState : Prop :=
  ∀ (s : State) (k : Kind), s.ready → s.build.family = .db9 → identify s.build.literals (db9FullRaw s.busAt) = .pad k →
    exec .init s = .next { s with
      cur := 0x00000000#32, resp := 0x00000000#32, fsm := []
      initOk := true, first := true, kind := k, linesEn := true
      raw := db9FullRaw s.busAt, phase := 5#3
      canon := ⟨128#8, 128#8, 0#8⟩, last := ⟨128#8, 128#8, 0#8⟩
      lines := { s.lines with sel := true }
      savedIe := s.hostIe, waitCnt := 0, waits := s.waits + 9, oldBytes := []
      pad := s.pad.drop 5, samples := s.samples + 5
      trace := s.trace ++ [.hostIe false, .idleDrive, .wait (s.build.literals.tDb9InitMs * 1000)] ++
        db9FullEvents s.build.literals s.busAt ++ [.hostIe s.hostIe] }

/-- R104, R105, R162, R241: INIT of a DB9 instance that sees a multi-tap, run undisturbed, completes with ERR_MULTITAP: its
whole next state, CANON and LAST unchanged. -/
def Obligations.InitMultitapNextState : Prop :=
  ∀ s : State, s.ready → s.build.family = .db9 → identify s.build.literals (db9FullRaw s.busAt) = .multiTap →
    exec .init s = .next { s with
      cur := 0x00000000#32, resp := 0x00000001#32, fsm := []
      initOk := false, first := false, kind := .none, linesEn := true
      raw := db9FullRaw s.busAt, phase := 5#3
      lines := { s.lines with sel := true }
      savedIe := s.hostIe, waitCnt := 0, waits := s.waits + 9, oldBytes := []
      pad := s.pad.drop 5, samples := s.samples + 5
      trace := s.trace ++ [.hostIe false, .idleDrive, .wait (s.build.literals.tDb9InitMs * 1000)] ++
        db9FullEvents s.build.literals s.busAt ++ [.hostIe s.hostIe] }

/-- R161, R162, R166, R169: the truth table of Identify, over every RAW, with the nibble patterns
at the source's values (R7). -/
def Obligations.IdentifyTruthTable : Prop :=
  ∀ r : Raw,
    let n1 := r.r0.extractLsb' 0 4
    let n2 := r.r1.extractLsb' 0 4
    let n4 := r.r3.extractLsb' 0 4
    let n5 := r.r4.extractLsb' 0 4
    let s := r.r1.getLsbD 5
    (n1 = 0x3#4 → identify .source r = .multiTap) ∧
    (n1 = 0xf#4 → n2 = 0x3#4 → n4 = 0x3#4 → n5 = 0x3#4 → s = true → identify .source r = .pad .genesis3) ∧
    (n1 = 0xf#4 → n2 = 0x3#4 → n4 ≠ 0x3#4 → s = true → identify .source r = .pad .genesis6) ∧
    (n1 = 0xf#4 → n2 = 0x3#4 → n4 = 0x3#4 → n5 ≠ 0x3#4 → s = true → identify .source r = .pad .genesis6) ∧
    (n1 = 0xf#4 → n2 ≠ 0x3#4 → s = true → identify .source r = .pad .sms) ∧
    (n1 ≠ 0x3#4 → n1 ≠ 0xf#4 → s = true → identify .source r = .pad .sms) ∧
    (n1 ≠ 0x3#4 → s = false → identify .source r = .pad .genesis6)

/-! ## POLL -/

/-- R107, R133, R135: POLL of a NES instance, run undisturbed, completes: its whole next state, with the 43 line events. -/
def Obligations.PollNesNextState : Prop :=
  ∀ s : State, s.ready → s.initOk = true → s.build.family = .nes →
    exec .poll s = .next { s with
      cur := 0x00000001#32, resp := 0x00010000#32, fsm := []
      raw := { s.raw with r0 := nesByte s.dataAt }
      canon := translateRaw .nes s.kind { s.raw with r0 := nesByte s.dataAt }
      lines := { s.lines with latch := false, clk := true }
      waitCnt := 0, bitCnt := 8#4, shift := nesByte s.dataAt, oldBytes := []
      pad := s.pad.drop 8, samples := s.samples + 8, waits := s.waits + 17
      trace := s.trace ++ nesReadEvents s.build.literals s.dataAt }

/-- R134: bit 8 - k of the NES read's byte is 1 exactly when the k-th sample was 0. -/
def Obligations.NesByteBits : Prop :=
  ∀ (d : Nat → BitVec 1) (k : Nat), 1 ≤ k → k ≤ 8 →
    ((nesByte d).getLsbD (8 - k) = true ↔ d (k - 1) = 0#1)

/-- R135: the NES read has 43 line events. -/
def Obligations.NesReadHas43Events : Prop := 
  ∀ (l : Literals) (d : Nat → BitVec 1), (nesReadEvents l d).length = 43

/-- R107, R155, R156, R251: POLL of a DB9 instance whose KIND is neither ATARI nor SMS, run undisturbed, completes: its whole
next state, the full read inside a masking window that leaves HOST_IE as it was. For KIND = NONE, which R108 does not list
and R201 calls unreachable, the full read is the model's choice of log 14 and CANON the free value of log 13. -/
def Obligations.PollDb9FullNextState : Prop :=
  ∀ s : State, s.ready → s.initOk = true → s.build.family = .db9 → s.kind ≠ .atari → s.kind ≠ .sms →
    exec .poll s = .next { s with
      cur := 0x00000001#32, resp := 0x00010000#32, fsm := []
      raw := db9FullRaw s.busAt, canon := translateRaw .db9 s.kind (db9FullRaw s.busAt), phase := 5#3
      lines := { s.lines with sel := true }
      savedIe := s.hostIe, waitCnt := 0, oldBytes := []
      pad := s.pad.drop 5, samples := s.samples + 5, waits := s.waits + 8
      trace := s.trace ++ [.hostIe false] ++ db9FullEvents s.build.literals s.busAt ++ [.hostIe s.hostIe] }

/-- R107, R157, R251: POLL of a DB9 instance whose KIND is ATARI or SMS, run undisturbed, completes: its whole next state,
phase 1 only, SEL never driven to 0, the other phases RAW_INVALID. -/
def Obligations.PollDb9ShortNextState : Prop :=
  ∀ s : State, s.ready → s.initOk = true → s.build.family = .db9 → s.kind = .atari ∨ s.kind = .sms →
    exec .poll s = .next { s with
      cur := 0x00000001#32, resp := 0x00010000#32, fsm := []
      raw := db9ShortRaw s.build.literals (s.busAt 0)
      canon := translateRaw .db9 s.kind (db9ShortRaw s.build.literals (s.busAt 0)), phase := 1#3
      lines := { s.lines with sel := true }
      savedIe := s.hostIe, waitCnt := 0, oldBytes := []
      pad := s.pad.drop 1, samples := s.samples + 1, waits := s.waits + 1
      trace := s.trace ++ [.hostIe false] ++ db9ShortEvents s.build.literals (s.busAt 0) ++ [.hostIe s.hostIe] }

/-- R152, R153: bit i of a bus sample is physical line DB9_PIN_MAP(i), every physical line is some bit's, and a sample is
stored with bits [7:6] zero, so it differs from the source's RAW_INVALID. -/
def Obligations.BusSampleBits : Prop :=
  (∀ (m : PinMap) (p : BitVec 6) (i : Fin 6), (busLines m p).getLsbD i = p.getLsbD m.lines[i]) ∧
  (∀ (m : PinMap) (j : Fin 6), ∃ i : Fin 6, m.lines[i] = j) ∧
  (∀ v : BitVec 6, (zext8 v).extractLsb' 0 6 = v ∧ (zext8 v).extractLsb' 6 2 = 0#2 ∧
    zext8 v ≠ Literals.source.rawInvalid)

/-- R107, R183, R184: POLL of a TG16 instance, run undisturbed, completes: its whole next state, with bank A in RAW[0][3:0]
and bank B in RAW[0][7:4]. -/
def Obligations.PollTg16NextState : Prop :=
  ∀ s : State, s.ready → s.initOk = true → s.build.family = .tg16 →
    exec .poll s = .next { s with
      cur := 0x00000001#32, resp := 0x00010000#32, fsm := []
      raw := { s.raw with r0 := s.tbusAt 1 ++ s.tbusAt 0 }
      canon := translateRaw .tg16 s.kind { s.raw with r0 := s.tbusAt 1 ++ s.tbusAt 0 }
      lines := { s.lines with oe := .enable, dsel := false }
      waitCnt := 0, bankA := s.tbusAt 0, bankB := s.tbusAt 1, oldBytes := []
      pad := s.pad.drop 2, samples := s.samples + 2, waits := s.waits + 3
      trace := s.trace ++ tg16ReadEvents s.build.literals (s.tbusAt 0) (s.tbusAt 1) }

/-- R190: polls of the same family and kind that read the same samples give the same CANON, whatever else the states hold. -/
def Obligations.PollDependsOnlyOnItsSamples : Prop :=
  ∀ s s' t t' : State, s.ready → s'.ready → s.initOk = true → s'.initOk = true →
    s.build.family = s'.build.family → s.build.pinMap = s'.build.pinMap → s.kind = s'.kind →
    (∀ k < 8, s.lineAt k = s'.lineAt k) →
    exec .poll s = .next t → exec .poll s' = .next t' → t.canon = t'.canon

/-! ## The translator -/

/-- R192, R193: an axis is 128 with neither direction, 0 with the minimum alone, 255 whenever the maximum is pressed. -/
def Obligations.AxisQuantisation : Prop :=
  axis false false = 128#8 ∧ axis true false = 0#8 ∧ axis false true = 255#8 ∧ axis true true = 255#8

/-- R191, R194: the NES table, bit by bit, over every RAW. R194 gives it for KIND = NONE; that it is used whatever KIND holds is
the model's choice of log 13. -/
def Obligations.TranslateNesTable : Prop :=
  ∀ (k : Kind) (r : Raw),
    let c := translateRaw .nes k r
    c.x = axis (r.r0.getLsbD 1) (r.r0.getLsbD 0) ∧ c.y = axis (r.r0.getLsbD 3) (r.r0.getLsbD 2) ∧
    c.btn.getLsbD 0 = r.r0.getLsbD 7 ∧ c.btn.getLsbD 1 = r.r0.getLsbD 6 ∧
    c.btn.getLsbD 2 = r.r0.getLsbD 5 ∧ c.btn.getLsbD 3 = r.r0.getLsbD 4 ∧ c.btn.extractLsb' 4 4 = 0#4

/-- R191, R199: the TG16 table, bit by bit, over every RAW (line sense: 0 is pressed). R199 gives it for KIND = NONE; that it is
used whatever KIND holds is the model's choice of log 13. -/
def Obligations.TranslateTg16Table : Prop :=
  ∀ (k : Kind) (r : Raw),
    let c := translateRaw .tg16 k r
    c.x = axis (!r.r0.getLsbD 3) (!r.r0.getLsbD 1) ∧ c.y = axis (!r.r0.getLsbD 0) (!r.r0.getLsbD 2) ∧
    c.btn.getLsbD 0 = !r.r0.getLsbD 4 ∧ c.btn.getLsbD 1 = !r.r0.getLsbD 5 ∧
    c.btn.getLsbD 2 = !r.r0.getLsbD 6 ∧ c.btn.getLsbD 3 = !r.r0.getLsbD 7 ∧ c.btn.extractLsb' 4 4 = 0#4

/-- R191, R195 to R198: the four DB9 tables, bit by bit, over every RAW (line sense: 0 is pressed). -/
def Obligations.TranslateDb9Tables : Prop :=
  ∀ r : Raw,
    (∀ k, k ≠ .none →
      (translateRaw .db9 k r).x = axis (!r.r0.getLsbD 2) (!r.r0.getLsbD 3) ∧
      (translateRaw .db9 k r).y = axis (!r.r0.getLsbD 0) (!r.r0.getLsbD 1)) ∧
    (let b := (translateRaw .db9 .atari r).btn
     b.getLsbD 1 = !r.r0.getLsbD 4 ∧ b &&& 0xFD#8 = 0#8) ∧
    (let b := (translateRaw .db9 .sms r).btn
     b.getLsbD 1 = !r.r0.getLsbD 4 ∧ b.getLsbD 2 = !r.r0.getLsbD 5 ∧ b &&& 0xF9#8 = 0#8) ∧
    (let b := (translateRaw .db9 .genesis3 r).btn
     b.getLsbD 1 = !r.r0.getLsbD 4 ∧ b.getLsbD 2 = !r.r0.getLsbD 5 ∧
     b.getLsbD 4 = !r.r1.getLsbD 4 ∧ b.getLsbD 7 = !r.r1.getLsbD 5 ∧ b &&& 0x69#8 = 0#8) ∧
    (let b := (translateRaw .db9 .genesis6 r).btn
     b.getLsbD 0 = !r.r4.getLsbD 1 ∧ b.getLsbD 1 = !r.r0.getLsbD 4 ∧ b.getLsbD 2 = !r.r0.getLsbD 5 ∧
     b.getLsbD 3 = !r.r4.getLsbD 0 ∧ b.getLsbD 4 = !r.r1.getLsbD 4 ∧ b.getLsbD 5 = !r.r4.getLsbD 3 ∧
     b.getLsbD 6 = !r.r4.getLsbD 2 ∧ b.getLsbD 7 = !r.r1.getLsbD 5)

/-- R203: nothing pressed gives the neutral state in every family. -/
def Obligations.NothingPressedIsNeutral : Prop :=
  (∀ (k : Kind) (r : Raw), r.r0 = 0x00#8 → translateRaw .nes k r = ⟨128#8, 128#8, 0#8⟩) ∧
  (∀ (k : Kind) (r : Raw), r.r0 = 0xFF#8 → translateRaw .tg16 k r = ⟨128#8, 128#8, 0#8⟩) ∧
  (∀ r : Raw, r.r0 = 0x3F#8 →
    translateRaw .db9 .atari r = ⟨128#8, 128#8, 0#8⟩ ∧ translateRaw .db9 .sms r = ⟨128#8, 128#8, 0#8⟩ ∧
    (r.r1 = 0x3F#8 → translateRaw .db9 .genesis3 r = ⟨128#8, 128#8, 0#8⟩) ∧
    (r.r1 = 0x3F#8 → r.r4 = 0x3F#8 → translateRaw .db9 .genesis6 r = ⟨128#8, 128#8, 0#8⟩))

/-! ## HAS_CHANGED and BUILD_REPORT -/

/-- R222, R223: HAS_CHANGED, run undisturbed, completes: its whole next state. CHANGED is 1 when FIRST is, or when a byte of
CANON differs from LAST's, and FIRST is cleared. -/
def Obligations.HasChangedNextState : Prop :=
  ∀ (rid : Byte) (s : State), s.ready → s.initOk = true →
    exec (.hasChanged rid) s = .next { s with
      cur := encode (.hasChanged rid)
      resp := if s.first = true ∨ s.canon ≠ s.last then 0x00020004#32 else 0x00020000#32
      first := false, fsm := [], oldBytes := [] }

/-- R224: BUILD_REPORT with a buffer, run undisturbed, completes: its whole next state, the three bytes written in ascending
order at the addresses the command computes. -/
def Obligations.BuildReportNextState : Prop :=
  ∀ (rid : Byte) (addr : Addr) (s : State), s.ready → s.initOk = true →
    exec (.buildReport rid addr) s = .next { s with
      cur := encode (.buildReport rid addr), resp := 0x00030300#32, last := s.canon, fsm := [], oldBytes := []
      mem := ((s.mem.write (reportAddr addr 0).toNat s.canon.x).write (reportAddr addr 1).toNat s.canon.y).write
        (reportAddr addr 2).toNat s.canon.btn
      trace := s.trace ++ [.memWrite (reportAddr addr 0) s.canon.x, .memWrite (reportAddr addr 1) s.canon.y,
        .memWrite (reportAddr addr 2) s.canon.btn] }

/-- R63, R64, R70: after BUILD_REPORT, report byte i reads at (ADDR + i) mod 2^16, and every address outside those three reads
as before. -/
def Obligations.BuildReportStoresTheReport : Prop :=
  ∀ (rid : Byte) (addr : Addr) (s : State), s.ready → s.initOk = true →
    ∃ t, exec (.buildReport rid addr) s = .next t ∧ t.busy = false ∧
      (∀ i : Fin 3, (reportAddr addr i).toNat = (addr.toNat + i.val) % 65536 ∧
        t.mem.read (reportAddr addr i).toNat = some (reportByte s.canon i)) ∧
      (∀ a : Nat, (∀ i : Fin 3, a ≠ (reportAddr addr i).toNat) → t.mem.read a = s.mem.read a)

/-- R224: BUILD_REPORT with the null buffer, run undisturbed, completes: its whole next state, LAST updated and no byte of
memory written. -/
def Obligations.BuildReportNullNextState : Prop :=
  ∀ (rid : Byte) (s : State), s.ready → s.initOk = true →
    exec (.buildReportNull rid) s = .next { s with
      cur := encode (.buildReportNull rid), resp := 0x00030300#32, last := s.canon, fsm := [], oldBytes := [] }

/-- R225 (a): a report built and then HAS_CHANGED, with nothing between, gives CHANGED = 0, provided FIRST was 0. -/
def Obligations.BuildThenHasChangedIsUnchanged : Prop :=
  ∀ (b : Instr) (r : Byte) (s : State), s.ready → s.initOk = true → s.first = false →
    (∃ rid addr, b = .buildReport rid addr) ∨ (∃ rid, b = .buildReportNull rid) →
    ∃ t u, exec b s = .next t ∧ exec (.hasChanged r) t = .next u ∧ u.resp = 0x00020000#32

/-- R225 (b), (c): the second of two reports built at one address writes the bytes the first wrote, LAST is those bytes
after each, and host memory is the same after the second as after the first. -/
def Obligations.BuildReportTwiceIsIdempotent : Prop :=
  ∀ (r1 r2 : Byte) (addr : Addr) (s : State), s.ready → s.initOk = true → s.mem.wf = true →
    ∃ t u, exec (.buildReport r1 addr) s = .next t ∧ exec (.buildReport r2 addr) t = .next u ∧
      u.mem = t.mem ∧ u.last = t.last ∧ t.last = s.canon ∧ u.resp = t.resp

/-- R226: the report identifier has no effect but on CUR, whatever the state and whenever host operations land. -/
def Obligations.ReportIdentifierIsIgnored : Prop :=
  ∀ (r r' : Byte) (addr : Addr) (s : State),
    (∃ t t', exec (.hasChanged r) s = .next t ∧ exec (.hasChanged r') s = .next t' ∧
      ({ t with cur := t'.cur } : State) = t') ∧
    (∃ t t', exec (.buildReport r addr) s = .next t ∧ exec (.buildReport r' addr) s = .next t' ∧
      ({ t with cur := t'.cur } : State) = t') ∧
    (∃ t t', exec (.buildReportNull r) s = .next t ∧ exec (.buildReportNull r') s = .next t' ∧
      ({ t with cur := t'.cur } : State) = t')

/-! ## The host's side -/

/-- R24, R25, R27, R61, R66: a read of a register index returns 0 for CMD, RESP, STATUS, 0 for index 3, and does nothing else
to the block. -/
def Obligations.RegisterReads : Prop :=
  ∀ (s : State) (n : Nat) (rest : List Arrival) (i : BitVec 2), s.fsm = [] → s.host = ⟨n, .readReg i⟩ :: rest →
    step s = .next { s with
      host := rest
      rdata := if i = 1#2 then s.resp else if i = 2#2 then s.statusWord else 0x00000000#32 }

/-- R27: STATUS shows each flag at its bit, and 0 in bits [31:10]. -/
def Obligations.StatusFields : Prop :=
  ∀ s : State, s.statusWord.getLsbD 0 = s.busy ∧ s.statusWord.getLsbD 1 = s.initOk ∧ s.statusWord.getLsbD 2 = s.first ∧
    s.statusWord.extractLsb' 3 3 = kindBits s.kind ∧ s.statusWord.extractLsb' 6 2 = familyBits s.build.family ∧
    s.statusWord.getLsbD 8 = s.drop ∧ s.statusWord.getLsbD 9 = s.linesEn ∧ s.statusWord.extractLsb' 10 22 = 0#22

/-- R25, R27, R61: a write of RESP, STATUS or index 3 is ignored: the step only takes it off the list and runs on. -/
def Obligations.OtherRegisterWritesAreIgnored : Prop :=
  ∀ (s : State) (n : Nat) (rest : List Arrival) (i : BitVec 2) (w : Word), i ≠ 0#2 →
    s.host = ⟨n, .writeReg i w⟩ :: rest → step s = .next (run { s with host := rest })

/-- R62: a register access narrower than 32 bits is refused. -/
def Obligations.NarrowAccessIsRefused : Prop :=
  ∀ (s : State) (n : Nat) (rest : List Arrival), s.host = ⟨n, .narrowAccess⟩ :: rest →
    step s = .refused .narrowAccess

/-- R41, R70, R74: with no command running, a host read of a byte of host memory returns the byte held and changes nothing
else; a host write changes that byte and no other, and nothing of the block; a write of HOST_IE changes HOST_IE alone. A read
of a byte that nothing has written returns the free value of log 6. -/
def Obligations.HostOperationsOnAnIdleBlock : Prop :=
  ∀ (s : State) (n : Nat) (rest : List Arrival), Sequenced s → s.fsm = [] →
    (∀ (addr : Addr) (v : Byte), s.host = ⟨n, .readMem addr⟩ :: rest → s.mem.read addr.toNat = some v →
      step s = .next { s with host := rest, rdata := v.setWidth 32 }) ∧
    (∀ addr : Addr, s.host = ⟨n, .readMem addr⟩ :: rest → s.mem.read addr.toNat = none →
      step s = .next { s with host := rest, rdata := (Config.hostMemory addr.toNat).setWidth 32 }) ∧
    (∀ (addr : Addr) (v : Byte), s.host = ⟨n, .writeMem addr v⟩ :: rest →
      ∃ m : Memory, step s = .next { s with host := rest, mem := m } ∧ m.read addr.toNat = some v ∧
        ∀ a : Nat, a ≠ addr.toNat → m.read a = s.mem.read a) ∧
    (∀ v : Bool, s.host = ⟨n, .writeIe v⟩ :: rest → step s = .next { s with host := rest, hostIe := v })

/-- R70: a host read of a buffer byte while BUILD_REPORT runs returns its new value or the value it held before the command,
whichever step the read lands after. -/
def Obligations.BufferReadWhileBusyIsOldOrNew : Prop :=
  ∀ (rid : Byte) (addr : Addr) (s t : State) (i : Fin 3), Sequenced s → s.rst = false → s.busy = false →
    s.initOk = true → exec (.buildReport rid addr) s = .next t → t.busy = true →
    (hostReadMem (reportAddr addr i) t).rdata = (s.hostByte (reportAddr addr i)).setWidth 32 ∨
    (hostReadMem (reportAddr addr i) t).rdata = (reportByte s.canon i).setWidth 32

/-- R60, R74: the block never reads host memory: a command run from two states that differ only in host memory leaves them
different in nothing else (the old buffer bytes kept for racing reads apart). -/
def Obligations.CommandsDoNotReadHostMemory : Prop :=
  ∀ (i : Instr) (s : State) (m : Memory),
    ∃ t t', exec i s = .next t ∧ exec i { s with mem := m } = .next t' ∧
      ({ t with mem := t'.mem, oldBytes := t'.oldBytes } : State) = t'

/-! ## Reset -/

/-- R260: RST asserted, whatever runs, abandons the running command, of which no further line event or memory write happens,
and puts the block's registers at the values the spec gives for reset, with the lines released; HOST_IE and host memory are
not written. The event `reset` is the model's record of it (log 10). -/
def Obligations.ResetAbandonsTheCommand : Prop :=
  ∀ (s : State) (n : Nat) (rest : List Arrival), s.host = ⟨n, .setRst true⟩ :: rest →
    ∃ t, step s = .next t ∧ ResetValued t ∧ t.rst = true ∧ t.host = rest ∧
      t.trace = (if s.rst = true then s.trace else s.trace ++ [.reset]) ∧
      t.hostIe = s.hostIe ∧ t.build = s.build ∧ ∀ a, t.mem.read a = s.mem.read a

/-- R260: on the release of RST the block holds the values the spec gives for reset, in whatever state it was held, nothing
runs, and HOST_IE and host memory are not written. -/
def Obligations.ResetReleaseHoldsTheResetValues : Prop :=
  ∀ (s : State) (n : Nat) (rest : List Arrival), s.rst = true → s.host = ⟨n, .setRst false⟩ :: rest →
    ∃ t, step s = .next t ∧ ResetValued t ∧ t.rst = false ∧ t.host = rest ∧ t.trace = s.trace ∧
      t.hostIe = s.hostIe ∧ t.build = s.build ∧ ∀ a, t.mem.read a = s.mem.read a

/-- R260: the values after reset that the spec gives. -/
def Obligations.ResetValues : Prop :=
  State.reset.fsm = [] ∧ State.reset.resp = 0x00000000#32 ∧
  State.reset.statusWord = (familyBits State.reset.build.family).setWidth 32 <<< 6 ∧
  State.reset.waitCnt = 0 ∧ State.reset.drivenLines = []

/-- R260: while RST is asserted the block holds its reset values, those R260 leaves unspecified at the values of log 3 (and
log 15, 21): every step keeps it so. -/
def Obligations.RstHoldsIsKept : Prop := ∀ s t : State, RstHolds s → step s = .next t → RstHolds t

/-! ## Whole-machine rules -/

/-- R20, R29, R30, R31, R34, R35: from a state with no command running, whenever host operations land, no command writes the
build parameters or DROP; only INIT writes KIND, INIT_OK and LINES_EN; only INIT and HAS_CHANGED write FIRST; only INIT and
BUILD_REPORT write LAST; only INIT and POLL write CANON; only BUILD_REPORT with a buffer writes host memory. -/
def Obligations.OnlyTheNamedCommandsWrite : Prop :=
  ∀ (i : Instr) (s t : State), s.busy = false → s.fsm = [] → exec i s = .next t →
    t.build = s.build ∧ t.drop = s.drop ∧
    (i ≠ .init → t.kind = s.kind ∧ t.initOk = s.initOk ∧ t.linesEn = s.linesEn) ∧
    (i ≠ .init → (∀ r, i ≠ .hasChanged r) → t.first = s.first) ∧
    (i ≠ .init → (∀ r a, i ≠ .buildReport r a) → (∀ r, i ≠ .buildReportNull r) → t.last = s.last) ∧
    (i ≠ .init → i ≠ .poll → t.canon = s.canon) ∧
    ((∀ r a, i ≠ .buildReport r a) → ∀ a, t.mem.read a = s.mem.read a)

/-- R39, R265: a wait records its minimum and loads WAIT_CNT with at least ceil(t × F_CLK_HZ) cycles, t in microseconds. -/
def Obligations.WaitCountsAreNotShort : Prop :=
  ∀ (us : Nat) (s : State),
    us * s.build.fClkHz ≤ 1000000 * (doAct (.wait us) s).waitCnt ∧
    (doAct (.wait us) s).trace = s.trace ++ [.wait us] ∧ (doAct .count (doAct (.wait us) s)).waitCnt = 0

/-- R251, R267: opening a window saves HOST_IE and clears it; closing it writes SAVED_IE back, over whatever the host wrote
to HOST_IE inside the window (log 12). -/
def Obligations.WindowCloseOverwritesHostIe : Prop :=
  ∀ (s u : State) (v : Bool),
    (doAct .maskIrq s).hostIe = false ∧ (doAct .maskIrq s).savedIe = s.hostIe ∧
    (u.savedIe = s.hostIe → (doAct .restoreIrq (hostWriteIe v u)).hostIe = s.hostIe)

/-- R272: the minimum durations of the read sequences, from the waits of their events, for every value of the literals and
at the source's. -/
def Obligations.MinimumDurations : Prop :=
  ∀ (l : Literals) (d : Nat → BitVec 1) (b : Nat → BitVec 6) (b0 : BitVec 6) (a1 a2 : BitVec 4),
    minimumUs (nesReadEvents l d) = l.tLatchUs + 8 * (l.tClkSetupUs + l.tClkHoldUs) ∧
    minimumUs (.wait (l.tDb9InitMs * 1000) :: db9FullEvents l b) = l.tDb9InitMs * 1000 + 8 * l.tDb9SettleUs ∧
    minimumUs (db9FullEvents l b) = 8 * l.tDb9SettleUs ∧ minimumUs (db9ShortEvents l b0) = l.tDb9SettleUs ∧
    minimumUs (tg16ReadEvents l a1 a2) = 3 * l.tTg16Us ∧
    minimumUs (nesReadEvents .source d) = 108 ∧
    minimumUs (.wait (Literals.source.tDb9InitMs * 1000) :: db9FullEvents .source b) = 100160 ∧
    minimumUs (db9FullEvents .source b) = 160 ∧ minimumUs (db9ShortEvents .source b0) = 20 ∧
    minimumUs (tg16ReadEvents .source a1 a2) = 3000

/-! ## Invariants -/

/-- Host memory keeps its canonical form at every step. The form, a strictly rising list of the bytes written, is the model's
choice of log 6; only the bound 65536 on the addresses is R60's. -/
def Obligations.MemoryCanonicalIsKept : Prop :=
  ∀ s t : State, MemoryCanonical s → step s = .next t → MemoryCanonical t

/-- R22, R27: BUSY is 1 exactly while the sequencer runs a command, and every command's steps end in a completion: every
step keeps it so. -/
def Obligations.SequencedIsKept : Prop := ∀ s t : State, Sequenced s → step s = .next t → Sequenced t

/-- R31, R34, R167, R193: KIND stays legal and never becomes ATARI, and the axes of CANON and LAST stay 0, 128 or 255, at
every step (across a reset by the values of log 3). -/
def Obligations.ReportsLegalIsKept : Prop := ∀ s t : State, ReportsLegal s → step s = .next t → ReportsLegal t

/-- R131, R151, R181, R256: once driven, the family's lines come back to their idle levels by the end of every command: every
step keeps it so. -/
def Obligations.LinesSettleIsKept : Prop := ∀ s t : State, LinesSettle s → step s = .next t → LinesSettle t

/-- R251: no masking window opens inside another and each closes before its command completes: every step keeps it so. -/
def Obligations.WindowsCloseIsKept : Prop := ∀ s t : State, WindowsClose s → step s = .next t → WindowsClose t

/-- R25: RESP's reserved bits read 0 at every step. -/
def Obligations.RespReservedZeroIsKept : Prop :=
  ∀ s t : State, RespReservedZero s → step s = .next t → RespReservedZero t

/-- The invariants hold at reset; the axes of CANON and LAST do because of the reset values log 3 chooses. -/
def Obligations.ResetMeetsTheInvariants : Prop :=
  MemoryCanonical State.reset ∧ Sequenced State.reset ∧ ReportsLegal State.reset ∧ LinesSettle State.reset ∧
  WindowsClose State.reset ∧ RespReservedZero State.reset ∧ RstHolds State.reset
end

