-- ==== Sys2Proof/Laws/State.lean ====
section
/-! SUPPORT. What each shared operation of Machine/Ops.lean does to each field of State, one lemma a field, so that no later
proof unfolds a record update. -/

namespace Sys2Proof.Machine

@[simp] theorem emit_build (e : Event) (s : State) : (emit e s).build = s.build := rfl
@[simp] theorem emit_fsm (e : Event) (s : State) : (emit e s).fsm = s.fsm := rfl
@[simp] theorem emit_cur (e : Event) (s : State) : (emit e s).cur = s.cur := rfl
@[simp] theorem emit_resp (e : Event) (s : State) : (emit e s).resp = s.resp := rfl
@[simp] theorem emit_busy (e : Event) (s : State) : (emit e s).busy = s.busy := rfl
@[simp] theorem emit_initOk (e : Event) (s : State) : (emit e s).initOk = s.initOk := rfl
@[simp] theorem emit_first (e : Event) (s : State) : (emit e s).first = s.first := rfl
@[simp] theorem emit_kind (e : Event) (s : State) : (emit e s).kind = s.kind := rfl
@[simp] theorem emit_drop (e : Event) (s : State) : (emit e s).drop = s.drop := rfl
@[simp] theorem emit_linesEn (e : Event) (s : State) : (emit e s).linesEn = s.linesEn := rfl
@[simp] theorem emit_raw (e : Event) (s : State) : (emit e s).raw = s.raw := rfl
@[simp] theorem emit_canon (e : Event) (s : State) : (emit e s).canon = s.canon := rfl
@[simp] theorem emit_last (e : Event) (s : State) : (emit e s).last = s.last := rfl
@[simp] theorem emit_lines (e : Event) (s : State) : (emit e s).lines = s.lines := rfl
@[simp] theorem emit_savedIe (e : Event) (s : State) : (emit e s).savedIe = s.savedIe := rfl
@[simp] theorem emit_waitCnt (e : Event) (s : State) : (emit e s).waitCnt = s.waitCnt := rfl
@[simp] theorem emit_bitCnt (e : Event) (s : State) : (emit e s).bitCnt = s.bitCnt := rfl
@[simp] theorem emit_phase (e : Event) (s : State) : (emit e s).phase = s.phase := rfl
@[simp] theorem emit_shift (e : Event) (s : State) : (emit e s).shift = s.shift := rfl
@[simp] theorem emit_bankA (e : Event) (s : State) : (emit e s).bankA = s.bankA := rfl
@[simp] theorem emit_bankB (e : Event) (s : State) : (emit e s).bankB = s.bankB := rfl
@[simp] theorem emit_hostIe (e : Event) (s : State) : (emit e s).hostIe = s.hostIe := rfl
@[simp] theorem emit_mem (e : Event) (s : State) : (emit e s).mem = s.mem := rfl
@[simp] theorem emit_rst (e : Event) (s : State) : (emit e s).rst = s.rst := rfl
@[simp] theorem emit_host (e : Event) (s : State) : (emit e s).host = s.host := rfl
@[simp] theorem emit_rdata (e : Event) (s : State) : (emit e s).rdata = s.rdata := rfl
@[simp] theorem emit_pad (e : Event) (s : State) : (emit e s).pad = s.pad := rfl
@[simp] theorem emit_oldBytes (e : Event) (s : State) : (emit e s).oldBytes = s.oldBytes := rfl
@[simp] theorem emit_trace (e : Event) (s : State) : (emit e s).trace = s.trace ++ [e] := rfl
@[simp] theorem emit_samples (e : Event) (s : State) : (emit e s).samples = s.samples := rfl
@[simp] theorem emit_waits (e : Event) (s : State) : (emit e s).waits = s.waits := rfl
@[simp] theorem emit_races (e : Event) (s : State) : (emit e s).races = s.races := rfl

@[simp] theorem sampled_build (s : State) : (s.sampled).build = s.build := rfl
@[simp] theorem sampled_fsm (s : State) : (s.sampled).fsm = s.fsm := rfl
@[simp] theorem sampled_cur (s : State) : (s.sampled).cur = s.cur := rfl
@[simp] theorem sampled_resp (s : State) : (s.sampled).resp = s.resp := rfl
@[simp] theorem sampled_busy (s : State) : (s.sampled).busy = s.busy := rfl
@[simp] theorem sampled_initOk (s : State) : (s.sampled).initOk = s.initOk := rfl
@[simp] theorem sampled_first (s : State) : (s.sampled).first = s.first := rfl
@[simp] theorem sampled_kind (s : State) : (s.sampled).kind = s.kind := rfl
@[simp] theorem sampled_drop (s : State) : (s.sampled).drop = s.drop := rfl
@[simp] theorem sampled_linesEn (s : State) : (s.sampled).linesEn = s.linesEn := rfl
@[simp] theorem sampled_raw (s : State) : (s.sampled).raw = s.raw := rfl
@[simp] theorem sampled_canon (s : State) : (s.sampled).canon = s.canon := rfl
@[simp] theorem sampled_last (s : State) : (s.sampled).last = s.last := rfl
@[simp] theorem sampled_lines (s : State) : (s.sampled).lines = s.lines := rfl
@[simp] theorem sampled_savedIe (s : State) : (s.sampled).savedIe = s.savedIe := rfl
@[simp] theorem sampled_waitCnt (s : State) : (s.sampled).waitCnt = s.waitCnt := rfl
@[simp] theorem sampled_bitCnt (s : State) : (s.sampled).bitCnt = s.bitCnt := rfl
@[simp] theorem sampled_phase (s : State) : (s.sampled).phase = s.phase := rfl
@[simp] theorem sampled_shift (s : State) : (s.sampled).shift = s.shift := rfl
@[simp] theorem sampled_bankA (s : State) : (s.sampled).bankA = s.bankA := rfl
@[simp] theorem sampled_bankB (s : State) : (s.sampled).bankB = s.bankB := rfl
@[simp] theorem sampled_hostIe (s : State) : (s.sampled).hostIe = s.hostIe := rfl
@[simp] theorem sampled_mem (s : State) : (s.sampled).mem = s.mem := rfl
@[simp] theorem sampled_rst (s : State) : (s.sampled).rst = s.rst := rfl
@[simp] theorem sampled_host (s : State) : (s.sampled).host = s.host := rfl
@[simp] theorem sampled_rdata (s : State) : (s.sampled).rdata = s.rdata := rfl
@[simp] theorem sampled_pad (s : State) : (s.sampled).pad = s.pad.tail := rfl
@[simp] theorem sampled_oldBytes (s : State) : (s.sampled).oldBytes = s.oldBytes := rfl
@[simp] theorem sampled_trace (s : State) : (s.sampled).trace = s.trace := rfl
@[simp] theorem sampled_samples (s : State) : (s.sampled).samples = s.samples + 1 := rfl
@[simp] theorem sampled_waits (s : State) : (s.sampled).waits = s.waits := rfl
@[simp] theorem sampled_races (s : State) : (s.sampled).races = s.races := rfl

@[simp] theorem doDrive_build (d : Drive) (s : State) : (doDrive d s).build = s.build := rfl
@[simp] theorem doDrive_fsm (d : Drive) (s : State) : (doDrive d s).fsm = s.fsm := rfl
@[simp] theorem doDrive_cur (d : Drive) (s : State) : (doDrive d s).cur = s.cur := rfl
@[simp] theorem doDrive_resp (d : Drive) (s : State) : (doDrive d s).resp = s.resp := rfl
@[simp] theorem doDrive_busy (d : Drive) (s : State) : (doDrive d s).busy = s.busy := rfl
@[simp] theorem doDrive_initOk (d : Drive) (s : State) : (doDrive d s).initOk = s.initOk := rfl
@[simp] theorem doDrive_first (d : Drive) (s : State) : (doDrive d s).first = s.first := rfl
@[simp] theorem doDrive_kind (d : Drive) (s : State) : (doDrive d s).kind = s.kind := rfl
@[simp] theorem doDrive_drop (d : Drive) (s : State) : (doDrive d s).drop = s.drop := rfl
@[simp] theorem doDrive_linesEn (d : Drive) (s : State) : (doDrive d s).linesEn = s.linesEn := rfl
@[simp] theorem doDrive_raw (d : Drive) (s : State) : (doDrive d s).raw = s.raw := rfl
@[simp] theorem doDrive_canon (d : Drive) (s : State) : (doDrive d s).canon = s.canon := rfl
@[simp] theorem doDrive_last (d : Drive) (s : State) : (doDrive d s).last = s.last := rfl
@[simp] theorem doDrive_lines (d : Drive) (s : State) : (doDrive d s).lines = setLine s.lines d := rfl
@[simp] theorem doDrive_savedIe (d : Drive) (s : State) : (doDrive d s).savedIe = s.savedIe := rfl
@[simp] theorem doDrive_waitCnt (d : Drive) (s : State) : (doDrive d s).waitCnt = s.waitCnt := rfl
@[simp] theorem doDrive_bitCnt (d : Drive) (s : State) : (doDrive d s).bitCnt = s.bitCnt := rfl
@[simp] theorem doDrive_phase (d : Drive) (s : State) : (doDrive d s).phase = s.phase := rfl
@[simp] theorem doDrive_shift (d : Drive) (s : State) : (doDrive d s).shift = s.shift := rfl
@[simp] theorem doDrive_bankA (d : Drive) (s : State) : (doDrive d s).bankA = s.bankA := rfl
@[simp] theorem doDrive_bankB (d : Drive) (s : State) : (doDrive d s).bankB = s.bankB := rfl
@[simp] theorem doDrive_hostIe (d : Drive) (s : State) : (doDrive d s).hostIe = s.hostIe := rfl
@[simp] theorem doDrive_mem (d : Drive) (s : State) : (doDrive d s).mem = s.mem := rfl
@[simp] theorem doDrive_rst (d : Drive) (s : State) : (doDrive d s).rst = s.rst := rfl
@[simp] theorem doDrive_host (d : Drive) (s : State) : (doDrive d s).host = s.host := rfl
@[simp] theorem doDrive_rdata (d : Drive) (s : State) : (doDrive d s).rdata = s.rdata := rfl
@[simp] theorem doDrive_pad (d : Drive) (s : State) : (doDrive d s).pad = s.pad := rfl
@[simp] theorem doDrive_oldBytes (d : Drive) (s : State) : (doDrive d s).oldBytes = s.oldBytes := rfl
@[simp] theorem doDrive_trace (d : Drive) (s : State) : (doDrive d s).trace = s.trace ++ [.drive d] := rfl
@[simp] theorem doDrive_samples (d : Drive) (s : State) : (doDrive d s).samples = s.samples := rfl
@[simp] theorem doDrive_waits (d : Drive) (s : State) : (doDrive d s).waits = s.waits := rfl
@[simp] theorem doDrive_races (d : Drive) (s : State) : (doDrive d s).races = s.races := rfl

@[simp] theorem beginWait_build (us : Nat) (s : State) : (beginWait us s).build = s.build := rfl
@[simp] theorem beginWait_fsm (us : Nat) (s : State) : (beginWait us s).fsm = .count :: s.fsm := rfl
@[simp] theorem beginWait_cur (us : Nat) (s : State) : (beginWait us s).cur = s.cur := rfl
@[simp] theorem beginWait_resp (us : Nat) (s : State) : (beginWait us s).resp = s.resp := rfl
@[simp] theorem beginWait_busy (us : Nat) (s : State) : (beginWait us s).busy = s.busy := rfl
@[simp] theorem beginWait_initOk (us : Nat) (s : State) : (beginWait us s).initOk = s.initOk := rfl
@[simp] theorem beginWait_first (us : Nat) (s : State) : (beginWait us s).first = s.first := rfl
@[simp] theorem beginWait_kind (us : Nat) (s : State) : (beginWait us s).kind = s.kind := rfl
@[simp] theorem beginWait_drop (us : Nat) (s : State) : (beginWait us s).drop = s.drop := rfl
@[simp] theorem beginWait_linesEn (us : Nat) (s : State) : (beginWait us s).linesEn = s.linesEn := rfl
@[simp] theorem beginWait_raw (us : Nat) (s : State) : (beginWait us s).raw = s.raw := rfl
@[simp] theorem beginWait_canon (us : Nat) (s : State) : (beginWait us s).canon = s.canon := rfl
@[simp] theorem beginWait_last (us : Nat) (s : State) : (beginWait us s).last = s.last := rfl
@[simp] theorem beginWait_lines (us : Nat) (s : State) : (beginWait us s).lines = s.lines := rfl
@[simp] theorem beginWait_savedIe (us : Nat) (s : State) : (beginWait us s).savedIe = s.savedIe := rfl
@[simp] theorem beginWait_waitCnt (us : Nat) (s : State) : (beginWait us s).waitCnt = waitCycles s.build.fClkHz us + Config.waitSlack s.waits := rfl
@[simp] theorem beginWait_bitCnt (us : Nat) (s : State) : (beginWait us s).bitCnt = s.bitCnt := rfl
@[simp] theorem beginWait_phase (us : Nat) (s : State) : (beginWait us s).phase = s.phase := rfl
@[simp] theorem beginWait_shift (us : Nat) (s : State) : (beginWait us s).shift = s.shift := rfl
@[simp] theorem beginWait_bankA (us : Nat) (s : State) : (beginWait us s).bankA = s.bankA := rfl
@[simp] theorem beginWait_bankB (us : Nat) (s : State) : (beginWait us s).bankB = s.bankB := rfl
@[simp] theorem beginWait_hostIe (us : Nat) (s : State) : (beginWait us s).hostIe = s.hostIe := rfl
@[simp] theorem beginWait_mem (us : Nat) (s : State) : (beginWait us s).mem = s.mem := rfl
@[simp] theorem beginWait_rst (us : Nat) (s : State) : (beginWait us s).rst = s.rst := rfl
@[simp] theorem beginWait_host (us : Nat) (s : State) : (beginWait us s).host = s.host := rfl
@[simp] theorem beginWait_rdata (us : Nat) (s : State) : (beginWait us s).rdata = s.rdata := rfl
@[simp] theorem beginWait_pad (us : Nat) (s : State) : (beginWait us s).pad = s.pad := rfl
@[simp] theorem beginWait_oldBytes (us : Nat) (s : State) : (beginWait us s).oldBytes = s.oldBytes := rfl
@[simp] theorem beginWait_trace (us : Nat) (s : State) : (beginWait us s).trace = s.trace ++ [.wait us] := rfl
@[simp] theorem beginWait_samples (us : Nat) (s : State) : (beginWait us s).samples = s.samples := rfl
@[simp] theorem beginWait_waits (us : Nat) (s : State) : (beginWait us s).waits = s.waits + 1 := rfl
@[simp] theorem beginWait_races (us : Nat) (s : State) : (beginWait us s).races = s.races := rfl

@[simp] theorem endWait_build (s : State) : (endWait s).build = s.build := rfl
@[simp] theorem endWait_fsm (s : State) : (endWait s).fsm = s.fsm := rfl
@[simp] theorem endWait_cur (s : State) : (endWait s).cur = s.cur := rfl
@[simp] theorem endWait_resp (s : State) : (endWait s).resp = s.resp := rfl
@[simp] theorem endWait_busy (s : State) : (endWait s).busy = s.busy := rfl
@[simp] theorem endWait_initOk (s : State) : (endWait s).initOk = s.initOk := rfl
@[simp] theorem endWait_first (s : State) : (endWait s).first = s.first := rfl
@[simp] theorem endWait_kind (s : State) : (endWait s).kind = s.kind := rfl
@[simp] theorem endWait_drop (s : State) : (endWait s).drop = s.drop := rfl
@[simp] theorem endWait_linesEn (s : State) : (endWait s).linesEn = s.linesEn := rfl
@[simp] theorem endWait_raw (s : State) : (endWait s).raw = s.raw := rfl
@[simp] theorem endWait_canon (s : State) : (endWait s).canon = s.canon := rfl
@[simp] theorem endWait_last (s : State) : (endWait s).last = s.last := rfl
@[simp] theorem endWait_lines (s : State) : (endWait s).lines = s.lines := rfl
@[simp] theorem endWait_savedIe (s : State) : (endWait s).savedIe = s.savedIe := rfl
@[simp] theorem endWait_waitCnt (s : State) : (endWait s).waitCnt = 0 := rfl
@[simp] theorem endWait_bitCnt (s : State) : (endWait s).bitCnt = s.bitCnt := rfl
@[simp] theorem endWait_phase (s : State) : (endWait s).phase = s.phase := rfl
@[simp] theorem endWait_shift (s : State) : (endWait s).shift = s.shift := rfl
@[simp] theorem endWait_bankA (s : State) : (endWait s).bankA = s.bankA := rfl
@[simp] theorem endWait_bankB (s : State) : (endWait s).bankB = s.bankB := rfl
@[simp] theorem endWait_hostIe (s : State) : (endWait s).hostIe = s.hostIe := rfl
@[simp] theorem endWait_mem (s : State) : (endWait s).mem = s.mem := rfl
@[simp] theorem endWait_rst (s : State) : (endWait s).rst = s.rst := rfl
@[simp] theorem endWait_host (s : State) : (endWait s).host = s.host := rfl
@[simp] theorem endWait_rdata (s : State) : (endWait s).rdata = s.rdata := rfl
@[simp] theorem endWait_pad (s : State) : (endWait s).pad = s.pad := rfl
@[simp] theorem endWait_oldBytes (s : State) : (endWait s).oldBytes = s.oldBytes := rfl
@[simp] theorem endWait_trace (s : State) : (endWait s).trace = s.trace := rfl
@[simp] theorem endWait_samples (s : State) : (endWait s).samples = s.samples := rfl
@[simp] theorem endWait_waits (s : State) : (endWait s).waits = s.waits := rfl
@[simp] theorem endWait_races (s : State) : (endWait s).races = s.races := rfl

@[simp] theorem doMemWrite_build (a : Addr) (i : Fin 3) (s : State) : (doMemWrite a i s).build = s.build := rfl
@[simp] theorem doMemWrite_fsm (a : Addr) (i : Fin 3) (s : State) : (doMemWrite a i s).fsm = s.fsm := rfl
@[simp] theorem doMemWrite_cur (a : Addr) (i : Fin 3) (s : State) : (doMemWrite a i s).cur = s.cur := rfl
@[simp] theorem doMemWrite_resp (a : Addr) (i : Fin 3) (s : State) : (doMemWrite a i s).resp = s.resp := rfl
@[simp] theorem doMemWrite_busy (a : Addr) (i : Fin 3) (s : State) : (doMemWrite a i s).busy = s.busy := rfl
@[simp] theorem doMemWrite_initOk (a : Addr) (i : Fin 3) (s : State) : (doMemWrite a i s).initOk = s.initOk := rfl
@[simp] theorem doMemWrite_first (a : Addr) (i : Fin 3) (s : State) : (doMemWrite a i s).first = s.first := rfl
@[simp] theorem doMemWrite_kind (a : Addr) (i : Fin 3) (s : State) : (doMemWrite a i s).kind = s.kind := rfl
@[simp] theorem doMemWrite_drop (a : Addr) (i : Fin 3) (s : State) : (doMemWrite a i s).drop = s.drop := rfl
@[simp] theorem doMemWrite_linesEn (a : Addr) (i : Fin 3) (s : State) : (doMemWrite a i s).linesEn = s.linesEn := rfl
@[simp] theorem doMemWrite_raw (a : Addr) (i : Fin 3) (s : State) : (doMemWrite a i s).raw = s.raw := rfl
@[simp] theorem doMemWrite_canon (a : Addr) (i : Fin 3) (s : State) : (doMemWrite a i s).canon = s.canon := rfl
@[simp] theorem doMemWrite_last (a : Addr) (i : Fin 3) (s : State) : (doMemWrite a i s).last = s.last := rfl
@[simp] theorem doMemWrite_lines (a : Addr) (i : Fin 3) (s : State) : (doMemWrite a i s).lines = s.lines := rfl
@[simp] theorem doMemWrite_savedIe (a : Addr) (i : Fin 3) (s : State) : (doMemWrite a i s).savedIe = s.savedIe := rfl
@[simp] theorem doMemWrite_waitCnt (a : Addr) (i : Fin 3) (s : State) : (doMemWrite a i s).waitCnt = s.waitCnt := rfl
@[simp] theorem doMemWrite_bitCnt (a : Addr) (i : Fin 3) (s : State) : (doMemWrite a i s).bitCnt = s.bitCnt := rfl
@[simp] theorem doMemWrite_phase (a : Addr) (i : Fin 3) (s : State) : (doMemWrite a i s).phase = s.phase := rfl
@[simp] theorem doMemWrite_shift (a : Addr) (i : Fin 3) (s : State) : (doMemWrite a i s).shift = s.shift := rfl
@[simp] theorem doMemWrite_bankA (a : Addr) (i : Fin 3) (s : State) : (doMemWrite a i s).bankA = s.bankA := rfl
@[simp] theorem doMemWrite_bankB (a : Addr) (i : Fin 3) (s : State) : (doMemWrite a i s).bankB = s.bankB := rfl
@[simp] theorem doMemWrite_hostIe (a : Addr) (i : Fin 3) (s : State) : (doMemWrite a i s).hostIe = s.hostIe := rfl
@[simp] theorem doMemWrite_mem (a : Addr) (i : Fin 3) (s : State) : (doMemWrite a i s).mem = s.mem.write (reportAddr a i).toNat (reportByte s.canon i) := rfl
@[simp] theorem doMemWrite_rst (a : Addr) (i : Fin 3) (s : State) : (doMemWrite a i s).rst = s.rst := rfl
@[simp] theorem doMemWrite_host (a : Addr) (i : Fin 3) (s : State) : (doMemWrite a i s).host = s.host := rfl
@[simp] theorem doMemWrite_rdata (a : Addr) (i : Fin 3) (s : State) : (doMemWrite a i s).rdata = s.rdata := rfl
@[simp] theorem doMemWrite_pad (a : Addr) (i : Fin 3) (s : State) : (doMemWrite a i s).pad = s.pad := rfl
@[simp] theorem doMemWrite_oldBytes (a : Addr) (i : Fin 3) (s : State) : (doMemWrite a i s).oldBytes = ((reportAddr a i).toNat, s.hostByte (reportAddr a i)) :: s.oldBytes := rfl
@[simp] theorem doMemWrite_trace (a : Addr) (i : Fin 3) (s : State) : (doMemWrite a i s).trace = s.trace ++ [.memWrite (reportAddr a i) (reportByte s.canon i)] := rfl
@[simp] theorem doMemWrite_samples (a : Addr) (i : Fin 3) (s : State) : (doMemWrite a i s).samples = s.samples := rfl
@[simp] theorem doMemWrite_waits (a : Addr) (i : Fin 3) (s : State) : (doMemWrite a i s).waits = s.waits := rfl
@[simp] theorem doMemWrite_races (a : Addr) (i : Fin 3) (s : State) : (doMemWrite a i s).races = s.races := rfl

@[simp] theorem maskIrq_build (s : State) : (maskIrq s).build = s.build := rfl
@[simp] theorem maskIrq_fsm (s : State) : (maskIrq s).fsm = s.fsm := rfl
@[simp] theorem maskIrq_cur (s : State) : (maskIrq s).cur = s.cur := rfl
@[simp] theorem maskIrq_resp (s : State) : (maskIrq s).resp = s.resp := rfl
@[simp] theorem maskIrq_busy (s : State) : (maskIrq s).busy = s.busy := rfl
@[simp] theorem maskIrq_initOk (s : State) : (maskIrq s).initOk = s.initOk := rfl
@[simp] theorem maskIrq_first (s : State) : (maskIrq s).first = s.first := rfl
@[simp] theorem maskIrq_kind (s : State) : (maskIrq s).kind = s.kind := rfl
@[simp] theorem maskIrq_drop (s : State) : (maskIrq s).drop = s.drop := rfl
@[simp] theorem maskIrq_linesEn (s : State) : (maskIrq s).linesEn = s.linesEn := rfl
@[simp] theorem maskIrq_raw (s : State) : (maskIrq s).raw = s.raw := rfl
@[simp] theorem maskIrq_canon (s : State) : (maskIrq s).canon = s.canon := rfl
@[simp] theorem maskIrq_last (s : State) : (maskIrq s).last = s.last := rfl
@[simp] theorem maskIrq_lines (s : State) : (maskIrq s).lines = s.lines := rfl
@[simp] theorem maskIrq_savedIe (s : State) : (maskIrq s).savedIe = s.hostIe := rfl
@[simp] theorem maskIrq_waitCnt (s : State) : (maskIrq s).waitCnt = s.waitCnt := rfl
@[simp] theorem maskIrq_bitCnt (s : State) : (maskIrq s).bitCnt = s.bitCnt := rfl
@[simp] theorem maskIrq_phase (s : State) : (maskIrq s).phase = s.phase := rfl
@[simp] theorem maskIrq_shift (s : State) : (maskIrq s).shift = s.shift := rfl
@[simp] theorem maskIrq_bankA (s : State) : (maskIrq s).bankA = s.bankA := rfl
@[simp] theorem maskIrq_bankB (s : State) : (maskIrq s).bankB = s.bankB := rfl
@[simp] theorem maskIrq_hostIe (s : State) : (maskIrq s).hostIe = false := rfl
@[simp] theorem maskIrq_mem (s : State) : (maskIrq s).mem = s.mem := rfl
@[simp] theorem maskIrq_rst (s : State) : (maskIrq s).rst = s.rst := rfl
@[simp] theorem maskIrq_host (s : State) : (maskIrq s).host = s.host := rfl
@[simp] theorem maskIrq_rdata (s : State) : (maskIrq s).rdata = s.rdata := rfl
@[simp] theorem maskIrq_pad (s : State) : (maskIrq s).pad = s.pad := rfl
@[simp] theorem maskIrq_oldBytes (s : State) : (maskIrq s).oldBytes = s.oldBytes := rfl
@[simp] theorem maskIrq_trace (s : State) : (maskIrq s).trace = s.trace ++ [.hostIe false] := rfl
@[simp] theorem maskIrq_samples (s : State) : (maskIrq s).samples = s.samples := rfl
@[simp] theorem maskIrq_waits (s : State) : (maskIrq s).waits = s.waits := rfl
@[simp] theorem maskIrq_races (s : State) : (maskIrq s).races = s.races := rfl

@[simp] theorem restoreIrq_build (s : State) : (restoreIrq s).build = s.build := rfl
@[simp] theorem restoreIrq_fsm (s : State) : (restoreIrq s).fsm = s.fsm := rfl
@[simp] theorem restoreIrq_cur (s : State) : (restoreIrq s).cur = s.cur := rfl
@[simp] theorem restoreIrq_resp (s : State) : (restoreIrq s).resp = s.resp := rfl
@[simp] theorem restoreIrq_busy (s : State) : (restoreIrq s).busy = s.busy := rfl
@[simp] theorem restoreIrq_initOk (s : State) : (restoreIrq s).initOk = s.initOk := rfl
@[simp] theorem restoreIrq_first (s : State) : (restoreIrq s).first = s.first := rfl
@[simp] theorem restoreIrq_kind (s : State) : (restoreIrq s).kind = s.kind := rfl
@[simp] theorem restoreIrq_drop (s : State) : (restoreIrq s).drop = s.drop := rfl
@[simp] theorem restoreIrq_linesEn (s : State) : (restoreIrq s).linesEn = s.linesEn := rfl
@[simp] theorem restoreIrq_raw (s : State) : (restoreIrq s).raw = s.raw := rfl
@[simp] theorem restoreIrq_canon (s : State) : (restoreIrq s).canon = s.canon := rfl
@[simp] theorem restoreIrq_last (s : State) : (restoreIrq s).last = s.last := rfl
@[simp] theorem restoreIrq_lines (s : State) : (restoreIrq s).lines = s.lines := rfl
@[simp] theorem restoreIrq_savedIe (s : State) : (restoreIrq s).savedIe = s.savedIe := rfl
@[simp] theorem restoreIrq_waitCnt (s : State) : (restoreIrq s).waitCnt = s.waitCnt := rfl
@[simp] theorem restoreIrq_bitCnt (s : State) : (restoreIrq s).bitCnt = s.bitCnt := rfl
@[simp] theorem restoreIrq_phase (s : State) : (restoreIrq s).phase = s.phase := rfl
@[simp] theorem restoreIrq_shift (s : State) : (restoreIrq s).shift = s.shift := rfl
@[simp] theorem restoreIrq_bankA (s : State) : (restoreIrq s).bankA = s.bankA := rfl
@[simp] theorem restoreIrq_bankB (s : State) : (restoreIrq s).bankB = s.bankB := rfl
@[simp] theorem restoreIrq_hostIe (s : State) : (restoreIrq s).hostIe = s.savedIe := rfl
@[simp] theorem restoreIrq_mem (s : State) : (restoreIrq s).mem = s.mem := rfl
@[simp] theorem restoreIrq_rst (s : State) : (restoreIrq s).rst = s.rst := rfl
@[simp] theorem restoreIrq_host (s : State) : (restoreIrq s).host = s.host := rfl
@[simp] theorem restoreIrq_rdata (s : State) : (restoreIrq s).rdata = s.rdata := rfl
@[simp] theorem restoreIrq_pad (s : State) : (restoreIrq s).pad = s.pad := rfl
@[simp] theorem restoreIrq_oldBytes (s : State) : (restoreIrq s).oldBytes = s.oldBytes := rfl
@[simp] theorem restoreIrq_trace (s : State) : (restoreIrq s).trace = s.trace ++ [.hostIe s.savedIe] := rfl
@[simp] theorem restoreIrq_samples (s : State) : (restoreIrq s).samples = s.samples := rfl
@[simp] theorem restoreIrq_waits (s : State) : (restoreIrq s).waits = s.waits := rfl
@[simp] theorem restoreIrq_races (s : State) : (restoreIrq s).races = s.races := rfl

@[simp] theorem complete_build (c : Code) (ch : Bool) (n : Byte) (s : State) : (complete c ch n s).build = s.build := rfl
@[simp] theorem complete_fsm (c : Code) (ch : Bool) (n : Byte) (s : State) : (complete c ch n s).fsm = [] := rfl
@[simp] theorem complete_cur (c : Code) (ch : Bool) (n : Byte) (s : State) : (complete c ch n s).cur = s.cur := rfl
@[simp] theorem complete_resp (c : Code) (ch : Bool) (n : Byte) (s : State) : (complete c ch n s).resp = respWord (fieldOp s.cur) n ch c := rfl
@[simp] theorem complete_busy (c : Code) (ch : Bool) (n : Byte) (s : State) : (complete c ch n s).busy = false := rfl
@[simp] theorem complete_initOk (c : Code) (ch : Bool) (n : Byte) (s : State) : (complete c ch n s).initOk = s.initOk := rfl
@[simp] theorem complete_first (c : Code) (ch : Bool) (n : Byte) (s : State) : (complete c ch n s).first = s.first := rfl
@[simp] theorem complete_kind (c : Code) (ch : Bool) (n : Byte) (s : State) : (complete c ch n s).kind = s.kind := rfl
@[simp] theorem complete_drop (c : Code) (ch : Bool) (n : Byte) (s : State) : (complete c ch n s).drop = s.drop := rfl
@[simp] theorem complete_linesEn (c : Code) (ch : Bool) (n : Byte) (s : State) : (complete c ch n s).linesEn = s.linesEn := rfl
@[simp] theorem complete_raw (c : Code) (ch : Bool) (n : Byte) (s : State) : (complete c ch n s).raw = s.raw := rfl
@[simp] theorem complete_canon (c : Code) (ch : Bool) (n : Byte) (s : State) : (complete c ch n s).canon = s.canon := rfl
@[simp] theorem complete_last (c : Code) (ch : Bool) (n : Byte) (s : State) : (complete c ch n s).last = s.last := rfl
@[simp] theorem complete_lines (c : Code) (ch : Bool) (n : Byte) (s : State) : (complete c ch n s).lines = s.lines := rfl
@[simp] theorem complete_savedIe (c : Code) (ch : Bool) (n : Byte) (s : State) : (complete c ch n s).savedIe = s.savedIe := rfl
@[simp] theorem complete_waitCnt (c : Code) (ch : Bool) (n : Byte) (s : State) : (complete c ch n s).waitCnt = s.waitCnt := rfl
@[simp] theorem complete_bitCnt (c : Code) (ch : Bool) (n : Byte) (s : State) : (complete c ch n s).bitCnt = s.bitCnt := rfl
@[simp] theorem complete_phase (c : Code) (ch : Bool) (n : Byte) (s : State) : (complete c ch n s).phase = s.phase := rfl
@[simp] theorem complete_shift (c : Code) (ch : Bool) (n : Byte) (s : State) : (complete c ch n s).shift = s.shift := rfl
@[simp] theorem complete_bankA (c : Code) (ch : Bool) (n : Byte) (s : State) : (complete c ch n s).bankA = s.bankA := rfl
@[simp] theorem complete_bankB (c : Code) (ch : Bool) (n : Byte) (s : State) : (complete c ch n s).bankB = s.bankB := rfl
@[simp] theorem complete_hostIe (c : Code) (ch : Bool) (n : Byte) (s : State) : (complete c ch n s).hostIe = s.hostIe := rfl
@[simp] theorem complete_mem (c : Code) (ch : Bool) (n : Byte) (s : State) : (complete c ch n s).mem = s.mem := rfl
@[simp] theorem complete_rst (c : Code) (ch : Bool) (n : Byte) (s : State) : (complete c ch n s).rst = s.rst := rfl
@[simp] theorem complete_host (c : Code) (ch : Bool) (n : Byte) (s : State) : (complete c ch n s).host = s.host := rfl
@[simp] theorem complete_rdata (c : Code) (ch : Bool) (n : Byte) (s : State) : (complete c ch n s).rdata = s.rdata := rfl
@[simp] theorem complete_pad (c : Code) (ch : Bool) (n : Byte) (s : State) : (complete c ch n s).pad = s.pad := rfl
@[simp] theorem complete_oldBytes (c : Code) (ch : Bool) (n : Byte) (s : State) : (complete c ch n s).oldBytes = [] := rfl
@[simp] theorem complete_trace (c : Code) (ch : Bool) (n : Byte) (s : State) : (complete c ch n s).trace = s.trace := rfl
@[simp] theorem complete_samples (c : Code) (ch : Bool) (n : Byte) (s : State) : (complete c ch n s).samples = s.samples := rfl
@[simp] theorem complete_waits (c : Code) (ch : Bool) (n : Byte) (s : State) : (complete c ch n s).waits = s.waits := rfl
@[simp] theorem complete_races (c : Code) (ch : Bool) (n : Byte) (s : State) : (complete c ch n s).races = s.races := rfl

end Sys2Proof.Machine
end

