-- ==== Sys2Proof/Laws/Acts.lean ====
section
/-! SUPPORT. The frame of a sequencer step: for each field, the steps that may write it; every other step keeps it. -/

namespace Sys2Proof.Machine

@[simp] theorem doAct_build (a : Act) (s : State) : (doAct a s).build = s.build := by
  cases a <;> first
    | rfl
    | (simp only [doAct, branchOnIdentity]; split <;> rfl)

@[simp] theorem doAct_cur (a : Act) (s : State) : (doAct a s).cur = s.cur := by
  cases a <;> first
    | rfl
    | (simp only [doAct, branchOnIdentity]; split <;> rfl)

@[simp] theorem doAct_drop (a : Act) (s : State) : (doAct a s).drop = s.drop := by
  cases a <;> first
    | rfl
    | (simp only [doAct, branchOnIdentity]; split <;> rfl)

@[simp] theorem doAct_rst (a : Act) (s : State) : (doAct a s).rst = s.rst := by
  cases a <;> first
    | rfl
    | (simp only [doAct, branchOnIdentity]; split <;> rfl)

@[simp] theorem doAct_host (a : Act) (s : State) : (doAct a s).host = s.host := by
  cases a <;> first
    | rfl
    | (simp only [doAct, branchOnIdentity]; split <;> rfl)

@[simp] theorem doAct_rdata (a : Act) (s : State) : (doAct a s).rdata = s.rdata := by
  cases a <;> first
    | rfl
    | (simp only [doAct, branchOnIdentity]; split <;> rfl)

@[simp] theorem doAct_races (a : Act) (s : State) : (doAct a s).races = s.races := by
  cases a <;> first
    | rfl
    | (simp only [doAct, branchOnIdentity]; split <;> rfl)

theorem doAct_initOk {a : Act} (s : State) (h0 : a ≠ .clearSession) (h1 : a ≠ .setInitOk) :
    (doAct a s).initOk = s.initOk := by
  cases a <;> first
    | rfl
    | contradiction
    | (simp only [doAct, branchOnIdentity]; split <;> rfl)

theorem doAct_first {a : Act} (s : State) (h0 : a ≠ .clearSession) (h1 : a ≠ .setFirst) (h2 : a ≠ .clearFirst) :
    (doAct a s).first = s.first := by
  cases a <;> first
    | rfl
    | contradiction
    | (simp only [doAct, branchOnIdentity]; split <;> rfl)

theorem doAct_kind {a : Act} (s : State) (h0 : a ≠ .clearSession) (h1 : a ≠ .identify) :
    (doAct a s).kind = s.kind := by
  cases a <;> first
    | rfl
    | contradiction


theorem doAct_linesEn {a : Act} (s : State) (h0 : a ≠ .enableLines) :
    (doAct a s).linesEn = s.linesEn := by
  cases a <;> first
    | rfl
    | contradiction
    | (simp only [doAct, branchOnIdentity]; split <;> rfl)

theorem doAct_canon {a : Act} (s : State) (h0 : a ≠ .neutralCanon) (h1 : a ≠ .translate) :
    (doAct a s).canon = s.canon := by
  cases a <;> first
    | rfl
    | contradiction
    | (simp only [doAct, branchOnIdentity]; split <;> rfl)

theorem doAct_last {a : Act} (s : State) (h0 : a ≠ .neutralLast) (h1 : a ≠ .copyLast) :
    (doAct a s).last = s.last := by
  cases a <;> first
    | rfl
    | contradiction
    | (simp only [doAct, branchOnIdentity]; split <;> rfl)

theorem doAct_hostIe {a : Act} (s : State) (h0 : a ≠ .maskIrq) (h1 : a ≠ .restoreIrq) :
    (doAct a s).hostIe = s.hostIe := by
  cases a <;> first
    | rfl
    | contradiction
    | (simp only [doAct, branchOnIdentity]; split <;> rfl)

theorem doAct_savedIe {a : Act} (s : State) (h0 : a ≠ .maskIrq) :
    (doAct a s).savedIe = s.savedIe := by
  cases a <;> first
    | rfl
    | contradiction
    | (simp only [doAct, branchOnIdentity]; split <;> rfl)

theorem doAct_mem {a : Act} (s : State) (h : ∀ addr i, a ≠ .memWrite addr i) : (doAct a s).mem = s.mem := by
  cases a <;> first
    | rfl
    | exact absurd rfl (h _ _)
    | (simp only [doAct, branchOnIdentity]; split <;> rfl)

theorem doAct_resp {a : Act} (s : State) (h : ∀ code changed n, a ≠ .complete code changed n) :
    (doAct a s).resp = s.resp := by
  cases a <;> first
    | rfl
    | exact absurd rfl (h _ _ _)
    | (simp only [doAct, branchOnIdentity]; split <;> rfl)

theorem doAct_busy {a : Act} (s : State) (h : ∀ code changed n, a ≠ .complete code changed n) :
    (doAct a s).busy = s.busy := by
  cases a <;> first
    | rfl
    | exact absurd rfl (h _ _ _)
    | (simp only [doAct, branchOnIdentity]; split <;> rfl)

/-- Every sequencer step keeps what no step writes: the parameters, CUR, DROP, RST and the host's operations. -/
theorem fsmStep_fixed (s : State) : (fsmStep s).build = s.build ∧ (fsmStep s).cur = s.cur ∧ (fsmStep s).drop = s.drop ∧
    (fsmStep s).rst = s.rst ∧ (fsmStep s).host = s.host := by
  unfold fsmStep
  split <;> simp

end Sys2Proof.Machine
end

