-- ==== Sys2Proof/Laws/Encoding.lean ====
section
/-! SUPPORT. The fields of a command word, of RESP and of a sample byte, taken out of what they were put into. -/

namespace Sys2Proof

@[simp] theorem fieldAddr_packWord (a : Addr) (r l : Byte) : fieldAddr (packWord a r l) = a := by
  ext i hi
  interval_cases i <;> simp [fieldAddr, packWord]

@[simp] theorem fieldRid_packWord (a : Addr) (r l : Byte) : fieldRid (packWord a r l) = r := by
  ext i hi
  interval_cases i <;> simp [fieldRid, packWord]

@[simp] theorem fieldRsv_packWord (a : Addr) (r l : Byte) : fieldRsv (packWord a r l) = l.extractLsb' 3 5 := by
  ext i hi
  interval_cases i <;> simp [fieldRsv, packWord]

@[simp] theorem fieldBuf_packWord (a : Addr) (r l : Byte) : fieldBuf (packWord a r l) = l.getLsbD 2 := by
  simp [fieldBuf, packWord]

@[simp] theorem fieldOp_packWord (a : Addr) (r l : Byte) : fieldOp (packWord a r l) = l.extractLsb' 0 2 := by
  ext i hi
  interval_cases i <;> simp [fieldOp, packWord]

/-- A word is put together again from its fields. -/
theorem packWord_fields (w : Word) : packWord (fieldAddr w) (fieldRid w) (w.extractLsb' 0 8) = w := by
  ext i hi
  interval_cases i <;> simp [fieldAddr, fieldRid, packWord]

/-- The low byte of a word from OP, BUF and RSV. -/
theorem lowByte_fields (w : Word) :
    w.extractLsb' 0 8 = ((fieldRsv w).setWidth 8 <<< 3) ||| ((BitVec.ofBool (fieldBuf w)).setWidth 8 <<< 2) |||
      (fieldOp w).setWidth 8 := by
  ext i hi
  interval_cases i <;> simp [fieldRsv, fieldBuf, fieldOp]

/-! ## Operands of a host program's line (R89) -/

theorem ridInRange_of_lt {n : Nat} (h : n < 256) : ridInRange n = true := decide_eq_true h

theorem ridInRange_of_ge {n : Nat} (h : 256 ≤ n) : ridInRange n = false := decide_eq_false (Nat.not_lt.2 h)

theorem addrInRange_of_lt {n : Nat} (h : n < 65536) : addrInRange n = true := decide_eq_true h

theorem addrInRange_of_ge {n : Nat} (h : 65536 ≤ n) : addrInRange n = false := decide_eq_false (Nat.not_lt.2 h)

theorem wordInRange_of_lt {n : Nat} (h : n < 4294967296) : wordInRange n = true := decide_eq_true h

@[simp] theorem ridInRange_toNat (r : Byte) : ridInRange r.toNat = true := ridInRange_of_lt r.isLt

@[simp] theorem addrInRange_toNat (a : Addr) : addrInRange a.toNat = true := addrInRange_of_lt a.isLt

@[simp] theorem wordInRange_toNat (w : Word) : wordInRange w.toNat = true := wordInRange_of_lt w.isLt

namespace Machine

@[simp] theorem respCode_respWord (op : BitVec 2) (n : Byte) (ch : Bool) (c : Code) :
    respCode (respWord op n ch c) = codeBits c := by
  ext i hi
  interval_cases i <;> simp [respCode, respWord]

@[simp] theorem respChanged_respWord (op : BitVec 2) (n : Byte) (ch : Bool) (c : Code) :
    respChanged (respWord op n ch c) = ch := by
  simp [respChanged, respWord]

@[simp] theorem respCount_respWord (op : BitVec 2) (n : Byte) (ch : Bool) (c : Code) :
    respCount (respWord op n ch c) = n := by
  ext i hi
  interval_cases i <;> simp [respCount, respWord]

@[simp] theorem respOp_respWord (op : BitVec 2) (n : Byte) (ch : Bool) (c : Code) :
    respOp (respWord op n ch c) = op := by
  ext i hi
  interval_cases i <;> simp [respOp, respWord]

@[simp] theorem respReservedZero_respWord (op : BitVec 2) (n : Byte) (ch : Bool) (c : Code) :
    respReservedZero (respWord op n ch c) = true := by
  simp only [respReservedZero, respWord, Bool.and_eq_true, beq_iff_eq]
  constructor <;> ext i hi <;> interval_cases i <;> simp

/-- Bit `i` of a mask is its `i`-th argument. -/
theorem mask_bits (b0 b1 b2 b3 b4 b5 b6 b7 : Bool) :
    (mask b0 b1 b2 b3 b4 b5 b6 b7).getLsbD 0 = b0 ∧ (mask b0 b1 b2 b3 b4 b5 b6 b7).getLsbD 1 = b1 ∧
    (mask b0 b1 b2 b3 b4 b5 b6 b7).getLsbD 2 = b2 ∧ (mask b0 b1 b2 b3 b4 b5 b6 b7).getLsbD 3 = b3 ∧
    (mask b0 b1 b2 b3 b4 b5 b6 b7).getLsbD 4 = b4 ∧ (mask b0 b1 b2 b3 b4 b5 b6 b7).getLsbD 5 = b5 ∧
    (mask b0 b1 b2 b3 b4 b5 b6 b7).getLsbD 6 = b6 ∧ (mask b0 b1 b2 b3 b4 b5 b6 b7).getLsbD 7 = b7 := by
  simp [mask]

end Machine

end Sys2Proof
end

