-- ==== Sys2Proof/Laws/Memory.lean ====
section
/-! SUPPORT. The laws of host memory: a read after a write, and the canonical form kept by every write. -/

namespace Sys2Proof.Machine

theorem cellsRead_write (l : List Host.Cell) (a b : Nat) (v : Byte) :
    cellsRead (cellsWrite l a v) b = if a = b then some v else cellsRead l b := by
  induction l with
  | nil => simp [cellsWrite, cellsRead]
  | cons c rest ih =>
    simp only [cellsWrite]
    split
    · simp [cellsRead]
    · split
      · rename_i h; subst h; simp [cellsRead]; split <;> simp_all
      · simp only [cellsRead, ih]
        split <;> split <;> simp_all

@[simp] theorem read_write_same (m : Memory) (a : Nat) (v : Byte) : (m.write a v).read a = some v := by
  simp [Memory.read, Memory.write, cellsRead_write]

theorem read_write_other (m : Memory) {a b : Nat} (v : Byte) (h : a ≠ b) :
    (m.write a v).read b = m.read b := by
  simp [Memory.read, Memory.write, cellsRead_write, h]

theorem cellsRise_cons (c : Host.Cell) (l : List Host.Cell) :
    cellsRise (c :: l) = true ↔ (∀ d ∈ l, c.1 < d.1) ∧ cellsRise l = true := by
  induction l generalizing c with
  | nil => simp [cellsRise]
  | cons d rest ih =>
    simp only [cellsRise, Bool.and_eq_true, decide_eq_true_eq, List.mem_cons, forall_eq_or_imp]
    constructor
    · rintro ⟨hcd, hr⟩
      exact ⟨⟨hcd, fun e he => lt_trans hcd (((ih d).1 hr).1 e he)⟩, hr⟩
    · rintro ⟨⟨hcd, -⟩, hr⟩
      exact ⟨hcd, hr⟩

theorem mem_cellsWrite {l : List Host.Cell} {a : Nat} {v : Byte} {c : Host.Cell}
    (h : c ∈ cellsWrite l a v) : c = (a, v) ∨ c ∈ l := by
  induction l with
  | nil => simpa [cellsWrite] using h
  | cons d rest ih =>
    simp only [cellsWrite] at h
    split at h
    · simpa using h
    · split at h
      · rcases List.mem_cons.1 h with h | h
        · exact .inl h
        · exact .inr (List.mem_cons_of_mem _ h)
      · rcases List.mem_cons.1 h with h | h
        · exact .inr (h ▸ List.mem_cons_self)
        · exact (ih h).imp_right (List.mem_cons_of_mem _)

theorem cellsRise_write (l : List Host.Cell) (a : Nat) (v : Byte) (h : cellsRise l = true) :
    cellsRise (cellsWrite l a v) = true := by
  induction l with
  | nil => rfl
  | cons c rest ih =>
    obtain ⟨hc, hr⟩ := (cellsRise_cons c rest).1 h
    simp only [cellsWrite]
    split
    · rename_i hac
      refine (cellsRise_cons _ _).2 ⟨fun d hd => ?_, h⟩
      rcases List.mem_cons.1 hd with hd | hd
      · exact hd ▸ hac
      · exact lt_trans hac (hc d hd)
    · split
      · rename_i hac
        exact (cellsRise_cons _ _).2 ⟨fun d hd => hac ▸ hc d hd, hr⟩
      · refine (cellsRise_cons _ _).2 ⟨fun d hd => ?_, ih hr⟩
        rcases mem_cellsWrite hd with hd | hd
        · subst hd; omega
        · exact hc d hd

/-- Every write inside the address space keeps the canonical form. -/
theorem write_keeps_wf (m : Memory) (a : Nat) (v : Byte) (ha : a < 65536) (h : m.wf = true) :
    (m.write a v).wf = true := by
  simp only [Memory.wf, Bool.and_eq_true, List.all_eq_true, decide_eq_true_eq] at h ⊢
  refine ⟨cellsRise_write _ _ _ h.1, fun c hc => ?_⟩
  rcases mem_cellsWrite hc with hc | hc
  · subst hc; exact ha
  · exact h.2 c hc

/-- A block write keeps the canonical form. -/
theorem doMemWrite_keeps_wf (addr : Addr) (i : Fin 3) (s : State) (h : s.mem.wf = true) :
    (doMemWrite addr i s).mem.wf = true := by
  rw [doMemWrite_mem]
  exact write_keeps_wf _ _ _ (reportAddr addr i).isLt h

/-- After a host write the byte held is the host's (R74). -/
@[simp] theorem hostWriteMem_hostByte (addr : Addr) (v : Byte) (s : State) :
    (hostWriteMem addr v s).hostByte addr = v := by
  simp [State.hostByte, hostWriteMem]

theorem cellsRead_forget (l : List Host.Cell) (a : Nat) : cellsRead (l.filter fun c => c.1 != a) a = none := by
  induction l with
  | nil => rfl
  | cons c rest ih =>
    by_cases h : c.1 = a
    · simpa [List.filter_cons, h] using ih
    · simpa [List.filter_cons, h, cellsRead] using ih

/-- After a host write no older value of the byte is kept (log 26). -/
theorem hostWriteMem_forgets (addr : Addr) (v : Byte) (s : State) :
    cellsRead (hostWriteMem addr v s).oldBytes addr.toNat = none := cellsRead_forget _ _

/-- A host write keeps the canonical form. -/
theorem hostWriteMem_keeps_wf (addr : Addr) (v : Byte) (s : State) (h : s.mem.wf = true) :
    (hostWriteMem addr v s).mem.wf = true :=
  write_keeps_wf _ _ _ addr.isLt h

end Sys2Proof.Machine
end

