-- ==== Sys2Proof/Laws/Run.lean ====
section
/-! SUPPORT. How the sequencer runs: its steps one after another, a straight stretch of steps as the fold of their
effects, and the principle by which a property kept by one sequencer step is kept by a run. -/

namespace Sys2Proof.Machine

@[simp] theorem fsmStep_idle (s : State) (h : s.fsm = []) : fsmStep s = s := by simp [fsmStep, h]

theorem fsmStep_cons (s : State) {a : Act} {rest : List Act} (h : s.fsm = a :: rest) :
    fsmStep s = doAct a { s with fsm := rest } := by simp [fsmStep, h]

@[simp] theorem runFor_zero (s : State) : runFor 0 s = s := rfl

/-- A run is the iteration of the sequencer's step. -/
theorem runFor_succ (n : Nat) (s : State) : runFor (n + 1) s = runFor n (fsmStep s) := by
  cases h : s.fsm with
  | nil =>
    have hidle : ∀ m, runFor m s = s := by
      intro m
      cases m with
      | zero => rfl
      | succ m => simp [runFor, h]
    rw [fsmStep_idle s h, hidle, hidle]
  | cons a rest => simp [runFor, h]

theorem runFor_idle (n : Nat) (s : State) (h : s.fsm = []) : runFor n s = s := by
  cases n with
  | zero => rfl
  | succ n => simp [runFor, h]

theorem runFor_add (m n : Nat) (s : State) : runFor (m + n) s = runFor n (runFor m s) := by
  induction m generalizing s with
  | zero => simp
  | succ m ih => rw [Nat.succ_add, runFor_succ, runFor_succ, ih]

theorem runFor_cons (n : Nat) (s : State) {a : Act} {rest : List Act} (h : s.fsm = a :: rest) :
    runFor (n + 1) s = runFor n (doAct a { s with fsm := rest }) := by
  rw [runFor_succ, fsmStep_cons s h]

/-- A property that one sequencer step keeps is kept by a run. -/
theorem runFor_keeps (P : State → Prop) (hstep : ∀ s, P s → P (fsmStep s)) (n : Nat) (s : State) (h : P s) :
    P (runFor n s) := by
  induction n generalizing s with
  | zero => exact h
  | succ n ih => rw [runFor_succ]; exact ih _ (hstep s h)

theorem run_keeps (P : State → Prop) (hstep : ∀ s, P s → P (fsmStep s)) (s : State) (h : P s) : P (run s) :=
  runFor_keeps P hstep _ s h

/-- The cycles of a wait, one after another, come to what `endWait` says at once (R39). -/
theorem waitTick_iterate (n : Nat) (s : State) : waitTick^[n] s = { s with waitCnt := s.waitCnt - n } := by
  induction n generalizing s with
  | zero => rfl
  | succ n ih =>
    rw [Function.iterate_succ_apply, ih]
    simp only [waitTick, Nat.sub_sub, Nat.add_comm 1 n]

theorem endWait_eq_ticks (s : State) : endWait s = waitTick^[s.waitCnt] s := by
  rw [waitTick_iterate, Nat.sub_self]; rfl

/-! ## Straight stretches -/

/-- A step that puts no other steps in place but a wait's own. -/
def straight (a : Act) : Bool := !endsTable a

/-- The effect of a straight step on everything but the sequencer: a wait's is its beginning and its end. -/
def effect (a : Act) (s : State) : State :=
  match a with
  | .wait us => { endWait (beginWait us s) with fsm := s.fsm }
  | a => doAct a s

/-- The effects of a straight stretch, one after another. -/
def effects : List Act → State → State
  | [], s => s
  | a :: rest, s => effects rest (effect a s)

theorem effects_append (l r : List Act) (s : State) : effects (l ++ r) s = effects r (effects l s) := by
  induction l generalizing s with
  | nil => rfl
  | cons a l ih => exact ih _

theorem effect_withFsm (a : Act) (h : straight a = true) (f : List Act) (s : State) :
    effect a { s with fsm := f } = { effect a s with fsm := f } := by
  cases a <;> first | rfl | simp [straight, endsTable] at h

theorem effects_withFsm (l : List Act) (h : ∀ a ∈ l, straight a = true) (f : List Act) (s : State) :
    effects l { s with fsm := f } = { effects l s with fsm := f } := by
  induction l generalizing s with
  | nil => rfl
  | cons a l ih =>
    simp only [effects]
    rw [effect_withFsm a (h a List.mem_cons_self), ih (fun b hb => h b (List.mem_cons_of_mem _ hb))]

/-- One straight step of a run: it takes its cost and has its effect. -/
theorem runFor_straight_one (a : Act) (h : straight a = true) (n : Nat) (rest : List Act) (s : State) :
    runFor (stepCost a + n) { s with fsm := a :: rest } = runFor n { effect a s with fsm := rest } := by
  cases a <;> first
    | (simp only [stepCost]; rw [Nat.add_comm, runFor_succ]; rfl)
    | simp [straight, endsTable] at h

/-- A straight stretch of a run: it takes its cost and has its effects. -/
theorem runFor_straight (l : List Act) (h : ∀ a ∈ l, straight a = true) (n : Nat) (rest : List Act) (s : State) :
    runFor (stepsCost l + n) { s with fsm := l ++ rest } = runFor n { effects l s with fsm := rest } := by
  induction l generalizing s with
  | nil => simp [stepsCost, effects]
  | cons a l ih =>
    simp only [stepsCost, List.cons_append, effects]
    rw [Nat.add_assoc, runFor_straight_one a (h a List.mem_cons_self)]
    exact ih (fun b hb => h b (List.mem_cons_of_mem _ hb)) _

/-- The straight stretch at the head of a running command's steps: it takes its cost and has its effects. -/
theorem runFor_head {l rest : List Act} {s : State} (hs : s.fsm = l ++ rest) (h : ∀ a ∈ l, straight a = true) (n : Nat) :
    runFor (stepsCost l + n) s = runFor n { effects l s with fsm := rest } := by
  have hrun := runFor_straight l h n rest s
  rwa [← hs] at hrun

/-- A whole table that ends in a completion: the run is over, with its effects and the completion's. -/
theorem runFor_table {l : List Act} {code : Code} {changed : Bool} {cnt : Byte} {s : State}
    (hs : s.fsm = l ++ [.complete code changed cnt]) (h : ∀ a ∈ l, straight a = true) {n : Nat}
    (hn : stepsCost l + 1 ≤ n) : runFor n s = complete code changed cnt (effects l s) := by
  have hrun : runFor n { s with fsm := l ++ [.complete code changed cnt] } = complete code changed cnt (effects l s) := by
    obtain ⟨k, rfl⟩ := Nat.exists_eq_add_of_le hn
    rw [show stepsCost l + 1 + k = stepsCost l + (1 + k) by omega, runFor_straight l h, Nat.add_comm 1 k,
      runFor_cons k _ rfl]
    exact runFor_idle _ _ rfl
  rwa [← hs] at hrun

/-! ## A command from its acceptance -/

/-- A word accepted by a block that is ready: its steps are those its checks give (R100, R102). -/
def accepted (w : Word) (s : State) : State :=
  { s with cur := w, busy := true, fsm := checkedSteps { s with cur := w, busy := true, fsm := [] } }

@[simp] theorem accepted_dataAt (w : Word) (s : State) : (accepted w s).dataAt = s.dataAt := rfl

@[simp] theorem accepted_busAt (w : Word) (s : State) : (accepted w s).busAt = s.busAt := rfl

@[simp] theorem accepted_tbusAt (w : Word) (s : State) : (accepted w s).tbusAt = s.tbusAt := rfl

/-- A command that is ready to be accepted comes to its checks, and they put its steps in place (R100, R102). -/
theorem issue_ready (w : Word) (s : State) (h : s.ready) :
    ∃ n, 127 ≤ n ∧ issue w s = runFor n (accepted w s) := by
  obtain ⟨hr, hb, hn⟩ := h
  have hw : writeCmd w s = { s with cur := w, busy := true, fsm := [.check] } := by simp [writeCmd, hr, hb]
  obtain ⟨k, hk⟩ := Nat.exists_eq_add_of_le hn
  refine ⟨127 + k, by omega, ?_⟩
  unfold issue run
  rw [hw, show State.budget { s with cur := w, busy := true, fsm := [.check] } = s.budget from rfl, hk,
    show Config.maxSteps + k = 127 + k + 1 by simp [Config.maxSteps]; omega, runFor_cons (127 + k) _ rfl]
  rfl

/-- A command whose steps are a straight table comes to its completion after the table's effects. -/
theorem issue_table {w : Word} {s : State} {l : List Act} {code : Code} {changed : Bool} {cnt : Byte} (h : s.ready)
    (hs : (accepted w s).fsm = l ++ [.complete code changed cnt]) (hl : ∀ a ∈ l, straight a = true)
    (hc : stepsCost l ≤ 126) : issue w s = complete code changed cnt (effects l (accepted w s)) := by
  obtain ⟨n, hn, he⟩ := issue_ready w s h
  rw [he, runFor_table hs hl (by omega)]

end Sys2Proof.Machine
end

