-- ==== Sys2Proof/Laws/Invariants.lean ====
section
/-! SUPPORT. What a step of the machine can do, said once: it lets a host operation land and runs the sequencer. A property
kept by each of these is kept by every step. -/

namespace Sys2Proof.Machine

/-- A command's meaning is its word's issue. -/
theorem exec_eq_issue (i : Instr) (s : State) : exec i s = .next (issue (encode i) s) := by
  cases i <;> rfl

/-- Decoding is the inverse of encoding on every legal word, so a command word that decodes is issued as it is. -/
theorem command_next {w : Word} {s t : State} (h : command w s = .next t) : ∃ v, t = issue v s := by
  unfold command at h
  split at h
  · rw [exec_eq_issue] at h; exact ⟨_, (Host.Outcome.next.inj h).symm⟩
  · exact ⟨_, (Host.Outcome.next.inj h).symm⟩

/-- Every way a step can go on: the next host operation lands, if there is one, and the sequencer runs. -/
theorem step_cases {s t : State} (h : step s = .next t) :
    (s.host = [] ∧ t = run s) ∨
    ∃ a rest u, s.host = a :: rest ∧ t = run u ∧
      ((∃ w, u = writeCmd w { s with host := rest }) ∨
       (∃ i w, a.op = .writeReg i w ∧ i ≠ 0#2 ∧ u = { s with host := rest }) ∨
       (∃ i, a.op = .readReg i ∧ u = hostReadReg i { s with host := rest }) ∨
       (∃ b, a.op = .readMem b ∧ u = hostReadMem b { s with host := rest }) ∨
       (∃ b v, a.op = .writeMem b v ∧ u = hostWriteMem b v { s with host := rest }) ∨
       (∃ v, a.op = .writeIe v ∧ u = hostWriteIe v { s with host := rest }) ∨
       (∃ v, a.op = .setRst v ∧ u = setRst v { s with host := rest })) := by
  unfold step serveNext at h
  split at h
  · rename_i hh
    exact .inl ⟨hh, (Host.Outcome.next.inj h).symm⟩
  · rename_i a rest hh
    refine .inr ⟨a, rest, ?_⟩
    unfold serve at h
    split at h
    · rename_i i w hop
      split at h
      · obtain ⟨v, rfl⟩ := command_next h
        exact ⟨_, hh, rfl, .inl ⟨v, rfl⟩⟩
      · rename_i hi
        exact ⟨_, hh, (Host.Outcome.next.inj h).symm, .inr (.inl ⟨i, w, hop, hi, rfl⟩)⟩
    · rename_i i hop
      exact ⟨_, hh, (Host.Outcome.next.inj h).symm, .inr (.inr (.inl ⟨i, hop, rfl⟩))⟩
    · simp at h
    · rename_i b hop
      exact ⟨_, hh, (Host.Outcome.next.inj h).symm, .inr (.inr (.inr (.inl ⟨b, hop, rfl⟩)))⟩
    · rename_i b v hop
      exact ⟨_, hh, (Host.Outcome.next.inj h).symm, .inr (.inr (.inr (.inr (.inl ⟨b, v, hop, rfl⟩))))⟩
    · rename_i v hop
      exact ⟨_, hh, (Host.Outcome.next.inj h).symm, .inr (.inr (.inr (.inr (.inr (.inl ⟨v, hop, rfl⟩)))))⟩
    · rename_i v hop
      exact ⟨_, hh, (Host.Outcome.next.inj h).symm, .inr (.inr (.inr (.inr (.inr (.inr ⟨v, hop, rfl⟩)))))⟩

/-- What each way of a step must keep for every step to keep it. -/
structure Kept (P : State → Prop) : Prop where
  fsm : ∀ s, P s → P (fsmStep s)
  pop : ∀ s rest, P s → P { s with host := rest }
  cmd : ∀ w s, P s → P (writeCmd w s)
  readReg : ∀ i s, P s → P (hostReadReg i s)
  readMem : ∀ a s, P s → P (hostReadMem a s)
  writeMem : ∀ a v s, P s → P (hostWriteMem a v s)
  writeIe : ∀ v s, P s → P (hostWriteIe v s)
  rst : ∀ v s, P s → P (setRst v s)

/-- A property kept by every way of a step is kept by the step. -/
theorem Kept.step {P : State → Prop} (k : Kept P) {s t : State} (h : P s) (hst : step s = .next t) : P t := by
  rcases step_cases hst with ⟨-, rfl⟩ | ⟨a, rest, u, -, rfl, hu⟩
  · exact run_keeps P k.fsm s h
  · refine run_keeps P k.fsm u ?_
    have hp := k.pop s rest h
    rcases hu with ⟨w, rfl⟩ | ⟨i, w, -, -, rfl⟩ | ⟨i, -, rfl⟩ | ⟨b, -, rfl⟩ | ⟨b, v, -, rfl⟩ | ⟨v, -, rfl⟩ | ⟨v, -, rfl⟩
    · exact k.cmd w _ hp
    · exact hp
    · exact k.readReg i _ hp
    · exact k.readMem b _ hp
    · exact k.writeMem b v _ hp
    · exact k.writeIe v _ hp
    · exact k.rst v _ hp

/-- A command's meaning keeps what its acceptance and every sequencer step keep. -/
theorem exec_keeps {P : State → Prop} (hfsm : ∀ s, P s → P (fsmStep s)) (hcmd : ∀ w s, P s → P (writeCmd w s))
    {i : Instr} {s t : State} (h : P s) (hst : exec i s = .next t) : P t := by
  rw [exec_eq_issue] at hst
  obtain rfl := Host.Outcome.next.inj hst
  exact run_keeps P hfsm _ (hcmd _ _ h)

/-- A sequencer step is a step's effect, or nothing in IDLE. -/
theorem fsmStep_cases (s : State) :
    (s.fsm = [] ∧ fsmStep s = s) ∨ ∃ a rest, s.fsm = a :: rest ∧ fsmStep s = doAct a { s with fsm := rest } := by
  cases h : s.fsm with
  | nil => exact .inl ⟨rfl, fsmStep_idle s h⟩
  | cons a rest => exact .inr ⟨a, rest, rfl, fsmStep_cons s h⟩

end Sys2Proof.Machine
end

