-- ==== Sys2Proof/Laws/PerInstr.lean ====
section
/-! SUPPORT. Statements made command by command: every word of a command has its opcode-table row's fixed bits. -/

namespace Sys2Proof.Laws.TableRow

/-- The mask of the command's row of spec/opcode_table.json. -/
def rowMask : Instr → Word
  | .init => 0xFFFFFFFF#32
  | .poll => 0xFFFFFFFF#32
  | .hasChanged _ => 0xFFFF00FF#32
  | .buildReport _ _ => 0x000000FF#32
  | .buildReportNull _ => 0xFFFF00FF#32

/-- The match of the command's row of spec/opcode_table.json. -/
def rowMatch : Instr → Word
  | .init => 0x00000000#32
  | .poll => 0x00000001#32
  | .hasChanged _ => 0x00000002#32
  | .buildReport _ _ => 0x00000007#32
  | .buildReportNull _ => 0x00000003#32

/-- The command's word has the fixed bits of its row. -/
def Statement (i : Instr) : Prop := encode i &&& rowMask i = rowMatch i

theorem init : Statement .init := by unfold Statement; decide

theorem poll : Statement .poll := by unfold Statement; decide

theorem hasChanged (rid : Byte) : Statement (.hasChanged rid) := by
  unfold Statement
  ext i hi
  interval_cases i <;> simp [encode, packWord, rowMask, rowMatch]

theorem buildReport (rid : Byte) (addr : Addr) : Statement (.buildReport rid addr) := by
  unfold Statement
  ext i hi
  interval_cases i <;> simp [encode, packWord, rowMask, rowMatch]

theorem buildReportNull (rid : Byte) : Statement (.buildReportNull rid) := by
  unfold Statement
  ext i hi
  interval_cases i <;> simp [encode, packWord, rowMask, rowMatch]

end Sys2Proof.Laws.TableRow
end

