-- ==== Sys2Proof/Laws/Readers.lean ====
section
/-! SUPPORT. What each stretch of a step table does as a whole: the read sequences (R133, R155, R157, R183) and the plain
ends of INIT and BUILD_REPORT. -/

namespace Sys2Proof.Machine

/-! ## NES -/

/-- What one turn of the bit loop does (R133). -/
theorem nesBitSteps_effects (l : Literals) (s : State) : effects (nesBitSteps l) s =
    { s with
      lines := { s.lines with clk := true }
      waitCnt := 0
      bitCnt := s.bitCnt + 1#4
      shift := shiftIn s.shift (s.dataAt 0)
      pad := s.pad.tail
      samples := s.samples + 1
      waits := s.waits + 2
      trace := s.trace ++ nesBitEvents l (s.dataAt 0) } := by
  simp only [nesBitSteps, effects, effect, doAct, doDrive, emit, beginWait, endWait, sampleData, State.sampled,
    nesBitEvents, State.dataAt, setLine, List.append_assoc, List.cons_append,
    List.nil_append, State.lineAt, Nat.add_assoc]

/-- Eight shifts put the first sample in bit 7 and the eighth in bit 0, in pressed sense (R134). -/
theorem nesByte_eq_shifts (d : Nat → BitVec 1) :
    nesByte d = shiftIn (shiftIn (shiftIn (shiftIn (shiftIn (shiftIn (shiftIn (shiftIn 0#8
      (d 0)) (d 1)) (d 2)) (d 3)) (d 4)) (d 5)) (d 6)) (d 7) := by
  simp only [nesByte, shiftIn, pressedBit]
  generalize d 0 = d0
  generalize d 1 = d1
  generalize d 2 = d2
  generalize d 3 = d3
  generalize d 4 = d4
  generalize d 5 = d5
  generalize d 6 = d6
  generalize d 7 = d7
  revert d0 d1 d2 d3 d4 d5 d6 d7
  decide

/-- What NesRead does (R133 to R135). -/
theorem nesReadSteps_effects (l : Literals) (s : State) : effects (nesReadSteps l) s =
    { s with
      raw := rawSet s.raw 0 (nesByte s.dataAt)
      lines := { s.lines with latch := false, clk := true }
      waitCnt := 0
      bitCnt := 8#4
      shift := nesByte s.dataAt
      pad := s.pad.drop 8
      samples := s.samples + 8
      waits := s.waits + 17
      trace := s.trace ++ nesReadEvents l s.dataAt } := by
  rw [nesByte_eq_shifts]
  simp only [nesReadSteps, Config.nesBits, nesBitsSteps, effects_append, nesBitSteps_effects]
  simp only [effects, effect, doAct, doDrive, emit, beginWait, endWait, setLine, storeShift, clearShift]
  simp [State.dataAt, State.lineAt, Nat.add_assoc, nesReadEvents, ← List.drop_one]

/-! ## DB9 -/

/-- What a drive of SEL and its settle do (R154). -/
theorem selSteps_effects (l : Literals) (v : Bool) (s : State) : effects (selSteps l v) s =
    { s with
      lines := { s.lines with sel := v }
      waitCnt := 0
      waits := s.waits + 1
      trace := s.trace ++ [.drive (.sel v), .wait l.tDb9SettleUs] } := by
  simp only [selSteps, effects, effect, doAct, doDrive, emit, beginWait, endWait, setLine,
    List.append_assoc, List.cons_append, List.nil_append]

/-- What the sample of a phase does (R153). -/
theorem samplePhase_effects (k : Fin 5) (s : State) : effects [.samplePhase k] s =
    { s with
      raw := rawSet s.raw k (zext8 (s.busAt 0))
      phase := BitVec.ofNat 3 (k.val + 1)
      pad := s.pad.tail
      samples := s.samples + 1
      trace := s.trace ++ [.sampleBus (s.busAt 0)] } := rfl

/-- What Db9ReadFull does (R155, R156). -/
theorem db9ReadFullSteps_effects (l : Literals) (s : State) : effects (db9ReadFullSteps l) s =
    { s with
      raw := db9FullRaw s.busAt
      lines := { s.lines with sel := true }
      waitCnt := 0
      phase := 5#3
      pad := s.pad.drop 5
      samples := s.samples + 5
      waits := s.waits + 8
      trace := s.trace ++ db9FullEvents l s.busAt } := by
  simp only [db9ReadFullSteps, pulseSteps, effects_append, selSteps_effects, samplePhase_effects]
  simp only [effects, effect, doAct, doDrive, emit, setLine]
  simp [State.busAt, State.lineAt, Nat.add_assoc, db9FullEvents, db9FullRaw, rawSet, ← List.drop_one]

/-- What Db9ReadShort does (R157). -/
theorem db9ReadShortSteps_effects (l : Literals) (s : State) : effects (db9ReadShortSteps l) s =
    { s with
      raw := db9ShortRaw s.build.literals (s.busAt 0)
      lines := { s.lines with sel := true }
      waitCnt := 0
      phase := 1#3
      pad := s.pad.drop 1
      samples := s.samples + 1
      waits := s.waits + 1
      trace := s.trace ++ db9ShortEvents l (s.busAt 0) } := by
  simp only [db9ReadShortSteps, effects_append, selSteps_effects]
  simp only [effects, effect, doAct, samplePhase, emit, State.sampled, invalidatePhases]
  simp [State.busAt, State.lineAt, db9ShortEvents, db9ShortRaw, rawSet, invalidRest]

/-! ## TG16 -/

/-- What Tg16Read does (R183, R184). -/
theorem tg16ReadSteps_effects (l : Literals) (s : State) : effects (tg16ReadSteps l) s =
    { s with
      raw := rawSet s.raw 0 (packBanks (s.tbusAt 0) (s.tbusAt 1))
      lines := { s.lines with oe := .enable, dsel := false }
      waitCnt := 0
      bankA := s.tbusAt 0
      bankB := s.tbusAt 1
      pad := s.pad.drop 2
      samples := s.samples + 2
      waits := s.waits + 3
      trace := s.trace ++ tg16ReadEvents l (s.tbusAt 0) (s.tbusAt 1) } := by
  simp only [tg16ReadSteps, effects, effect, doAct, doDrive, emit, beginWait, endWait, setLine,
    sampleBankA, sampleBankB, storeBanks, State.sampled]
  simp [State.tbusAt, State.lineAt, Nat.add_assoc, tg16ReadEvents, ← List.drop_one]

/-! ## INIT -/

/-- What INIT does before its family's body (R104). -/
theorem initHeadSteps_effects (s : State) : effects initHeadSteps s =
    { s with
      savedIe := s.hostIe
      hostIe := false
      initOk := false
      first := false
      kind := .none
      lines := idleLines s.build.family s.lines
      linesEn := true
      trace := s.trace ++ [.hostIe false, .idleDrive] } := by
  simp only [initHeadSteps, effects, effect, doAct, maskIrq, clearSession, setIdleLevels, enableLines, emit,
    List.append_assoc, List.cons_append, List.nil_append]

/-- What a settle wait does. -/
theorem wait_effects (us : Nat) (s : State) : effects [.wait us] s =
    { s with
      waitCnt := 0
      waits := s.waits + 1
      trace := s.trace ++ [.wait us] } := rfl

end Sys2Proof.Machine
end

