-- ==== Sys2Proof/Tests/Slice0.lean ====
section
/-! SUPPORT. The model's own tests. Expected values are the spec's: the vectors of 95_test_vectors.md by their ids, or the
rule named. The witnesses show a state and operands that meet the hypotheses of each statement together. -/

namespace Sys2Proof.Tests

open Sys2Proof.Machine

/-! ## Well-formedness: an ill-formed term for each check -/

/-- R89: a report identifier is 0 to 255. -/
theorem test_rid_out_of_range :
    (AsmCommand.haschg 256).wellFormed = false ∧ (AsmCommand.buildNull 256).wellFormed = false ∧
    (AsmCommand.haschg 255).wellFormed = true := by decide

/-- R89: a buffer address is 0 to 65535. -/
theorem test_addr_out_of_range :
    (AsmCommand.build 0 65536).wellFormed = false ∧ (AsmCommand.build 256 0).wellFormed = false ∧
    (AsmCommand.buildAt 65536).wellFormed = false ∧ (AsmCommand.build 255 65535).wellFormed = true := by decide

/-- R80: a word has 32 bits; a line is checked through its command. -/
theorem test_word_out_of_range :
    (AsmLine.wr (.word 4294967296)).wellFormed = false ∧ (AsmLine.cmd (.haschg 256)).wellFormed = false ∧
    (AsmLine.wr (.word 4294967295)).wellFormed = true := by decide

/-- R7: a pin map that names a line twice is no permutation. -/
theorem test_pin_map_repeats :
    isPermutation #v[0, 1, 2, 3, 4, 4] = false ∧ isPermutation #v[5, 4, 3, 2, 1, 0] = true := by decide

/-- R7: the defaults of the literals are the source's values. -/
theorem test_literal_defaults : Literals.source = ⟨12, 6, 6, 20, 100, 1000, 0x3#4, 0xf#4, 0x3#4, 0xff#8⟩ := by decide

/-! ## Encoding -/

/-- E1 and E2. -/
theorem test_decode_init_poll :
    decode 0x00000000#32 = .ok .init ∧ decode 0x00000001#32 = .ok .poll := by decide

/-- E3 to E5. -/
theorem test_decode_has_changed :
    decode 0x00000002#32 = .ok (.hasChanged 0#8) ∧ decode 0x00000102#32 = .ok (.hasChanged 1#8) ∧
    decode 0x0000FF02#32 = .ok (.hasChanged 255#8) := by decide

/-- E6 and E7. -/
theorem test_decode_build_report_null :
    decode 0x00000003#32 = .ok (.buildReportNull 0#8) ∧
    decode 0x00004203#32 = .ok (.buildReportNull 0x42#8) := by decide

/-- E8 to E10. -/
theorem test_decode_build_report :
    decode 0x00000007#32 = .ok (.buildReport 0#8 0x0000#16) ∧
    decode 0x01000007#32 = .ok (.buildReport 0#8 0x0100#16) ∧
    decode 0xFFFFFF07#32 = .ok (.buildReport 255#8 0xFFFF#16) := by decide

/-- E11 to E18. -/
theorem test_illegal_init_poll :
    decode 0x00000004#32 = .error .notInit ∧ decode 0x00000005#32 = .error .notPoll ∧
    decode 0x00000006#32 = .error .notHasChanged ∧ decode 0x00000008#32 = .error .notInit ∧
    decode 0x00000100#32 = .error .notInit ∧ decode 0x80000000#32 = .error .notInit ∧
    decode 0x00000009#32 = .error .notPoll ∧ decode 0x00000101#32 = .error .notPoll := by decide

/-- E19 to E25. -/
theorem test_illegal_reports :
    decode 0x00010002#32 = .error .notHasChanged ∧ decode 0x00000012#32 = .error .notHasChanged ∧
    decode 0x0000000A#32 = .error .notHasChanged ∧ decode 0x00010003#32 = .error .notBuildReport ∧
    decode 0x0000000B#32 = .error .notBuildReport ∧ decode 0x0000000F#32 = .error .notBuildReport ∧
    decode 0xFFFFFFFF#32 = .error .notBuildReport := by decide

/-- The words of P2's program lines (R89). -/
theorem test_assemble_program :
    assemble (.haschg 0x42) = some 0x00004202#32 ∧ assemble (.build 0x42 0x0200) = some 0x02004207#32 ∧
    assemble (.buildNull 0x42) = some 0x00004203#32 ∧ assemble (.haschg 256) = none := by decide

/-! ## Pure functions -/

/-- I1, I3, I4, I5, I6 and I11. -/
theorem test_identify_classes :
    identify .source ⟨0x3F#8, 0x33#8, 0x3F#8, 0x33#8, 0x33#8⟩ = .pad .genesis3 ∧
    identify .source ⟨0x3F#8, 0x33#8, 0x33#8, 0x30#8, 0x30#8⟩ = .pad .genesis6 ∧
    identify .source ⟨0x3F#8, 0x33#8, 0x33#8, 0x33#8, 0x30#8⟩ = .pad .genesis6 ∧
    identify .source ⟨0x3F#8, 0x33#8, 0x33#8, 0x30#8, 0x33#8⟩ = .pad .genesis6 ∧
    identify .source ⟨0x3F#8, 0x3F#8, 0x3F#8, 0x3F#8, 0x3F#8⟩ = .pad .sms ∧
    identify .source ⟨0x3E#8, 0x3F#8, 0x3F#8, 0x3F#8, 0x3F#8⟩ = .pad .sms := by decide

/-- I9, I10, I12, I13 and I7. -/
theorem test_identify_override :
    identify .source ⟨0x33#8, 0x13#8, 0x00#8, 0x00#8, 0x00#8⟩ = .multiTap ∧
    identify .source ⟨0x03#8, 0x3F#8, 0x3F#8, 0x3F#8, 0x3F#8⟩ = .multiTap ∧
    identify .source ⟨0x3F#8, 0x13#8, 0x33#8, 0x33#8, 0x33#8⟩ = .pad .genesis6 ∧
    identify .source ⟨0x3E#8, 0x1F#8, 0x3F#8, 0x3F#8, 0x3F#8⟩ = .pad .genesis6 ∧
    identify .source ⟨0x3F#8, 0x23#8, 0x33#8, 0x33#8, 0x33#8⟩ = .pad .genesis3 := by decide

/-- T2 to T12 of the NES table. -/
theorem test_translate_nes :
    translateRaw .nes .none ⟨0x80#8, 0#8, 0#8, 0#8, 0#8⟩ = ⟨128#8, 128#8, 0x01#8⟩ ∧
    translateRaw .nes .none ⟨0x10#8, 0#8, 0#8, 0#8, 0#8⟩ = ⟨128#8, 128#8, 0x08#8⟩ ∧
    translateRaw .nes .none ⟨0x08#8, 0#8, 0#8, 0#8, 0#8⟩ = ⟨128#8, 0#8, 0x00#8⟩ ∧
    translateRaw .nes .none ⟨0x01#8, 0#8, 0#8, 0#8, 0#8⟩ = ⟨255#8, 128#8, 0x00#8⟩ ∧
    translateRaw .nes .none ⟨0x0C#8, 0#8, 0#8, 0#8, 0#8⟩ = ⟨128#8, 255#8, 0x00#8⟩ ∧
    translateRaw .nes .none ⟨0x0A#8, 0#8, 0#8, 0#8, 0#8⟩ = ⟨0#8, 0#8, 0x00#8⟩ := by decide

/-- T18, T20, T21, T23 and T24. -/
theorem test_translate_sms_atari :
    translateRaw .db9 .sms ⟨0x3B#8, 0xFF#8, 0xFF#8, 0xFF#8, 0xFF#8⟩ = ⟨0#8, 128#8, 0x00#8⟩ ∧
    translateRaw .db9 .sms ⟨0x33#8, 0xFF#8, 0xFF#8, 0xFF#8, 0xFF#8⟩ = ⟨255#8, 128#8, 0x00#8⟩ ∧
    translateRaw .db9 .sms ⟨0x2F#8, 0xFF#8, 0xFF#8, 0xFF#8, 0xFF#8⟩ = ⟨128#8, 128#8, 0x02#8⟩ ∧
    translateRaw .db9 .sms ⟨0x00#8, 0xFF#8, 0xFF#8, 0xFF#8, 0xFF#8⟩ = ⟨255#8, 255#8, 0x06#8⟩ ∧
    translateRaw .db9 .atari ⟨0x0F#8, 0xFF#8, 0xFF#8, 0xFF#8, 0xFF#8⟩ = ⟨128#8, 128#8, 0x02#8⟩ := by decide

/-- T28, T29, T31 and T32; T34, T35, T36, T37 and T41. -/
theorem test_translate_genesis :
    translateRaw .db9 .genesis3 ⟨0x3F#8, 0x23#8, 0x00#8, 0x00#8, 0x00#8⟩ = ⟨128#8, 128#8, 0x10#8⟩ ∧
    translateRaw .db9 .genesis3 ⟨0x3F#8, 0x13#8, 0x00#8, 0x00#8, 0x00#8⟩ = ⟨128#8, 128#8, 0x80#8⟩ ∧
    translateRaw .db9 .genesis3 ⟨0x3F#8, 0x30#8, 0x00#8, 0x00#8, 0x00#8⟩ = ⟨128#8, 128#8, 0x00#8⟩ ∧
    translateRaw .db9 .genesis3 ⟨0x00#8, 0x00#8, 0x00#8, 0x00#8, 0x00#8⟩ = ⟨255#8, 255#8, 0x96#8⟩ ∧
    translateRaw .db9 .genesis6 ⟨0x3F#8, 0x33#8, 0x00#8, 0x00#8, 0x3E#8⟩ = ⟨128#8, 128#8, 0x08#8⟩ ∧
    translateRaw .db9 .genesis6 ⟨0x3F#8, 0x33#8, 0x00#8, 0x00#8, 0x3D#8⟩ = ⟨128#8, 128#8, 0x01#8⟩ ∧
    translateRaw .db9 .genesis6 ⟨0x3F#8, 0x33#8, 0x00#8, 0x00#8, 0x3B#8⟩ = ⟨128#8, 128#8, 0x40#8⟩ ∧
    translateRaw .db9 .genesis6 ⟨0x3F#8, 0x33#8, 0x00#8, 0x00#8, 0x37#8⟩ = ⟨128#8, 128#8, 0x20#8⟩ ∧
    translateRaw .db9 .genesis6 ⟨0x00#8, 0x00#8, 0x00#8, 0x00#8, 0x00#8⟩ = ⟨255#8, 255#8, 0xFF#8⟩ := by decide

/-- T43, T46, T48, T49 and T52. -/
theorem test_translate_tg16 :
    translateRaw .tg16 .none ⟨0xFE#8, 0#8, 0#8, 0#8, 0#8⟩ = ⟨128#8, 0#8, 0x00#8⟩ ∧
    translateRaw .tg16 .none ⟨0xF7#8, 0#8, 0#8, 0#8, 0#8⟩ = ⟨0#8, 128#8, 0x00#8⟩ ∧
    translateRaw .tg16 .none ⟨0xF5#8, 0#8, 0#8, 0#8, 0#8⟩ = ⟨255#8, 128#8, 0x00#8⟩ ∧
    translateRaw .tg16 .none ⟨0xEF#8, 0#8, 0#8, 0#8, 0#8⟩ = ⟨128#8, 128#8, 0x01#8⟩ ∧
    translateRaw .tg16 .none ⟨0x7F#8, 0#8, 0#8, 0#8, 0#8⟩ = ⟨128#8, 128#8, 0x08#8⟩ := by decide

/-- D3 and D4: a bus sample is stored with its high bits zero, after the pin map. -/
theorem test_bus_storage :
    zext8 0b101010#6 = 0x2A#8 ∧ zext8 (busLines ⟨#v[5, 4, 3, 2, 1, 0], by decide⟩ 0b000001#6) = 0x20#8 := by decide

/-- G2: bank A is the low nibble. -/
theorem test_pack_banks : packBanks 0xE#4 0x7#4 = 0x7E#8 := by decide

/-- R265: ceil(12 µs at 1.5 MHz) is 18 cycles, and of 1 µs 2 cycles. -/
theorem test_wait_cycles : waitCycles 1500000 12 = 18 ∧ waitCycles 1500000 1 = 2 := by decide

/-- H9: a buffer at 0xFFFE wraps. -/
theorem test_address_wraps :
    reportAddr 0xFFFE#16 1 = 0xFFFF#16 ∧ reportAddr 0xFFFE#16 2 = 0x0000#16 := by decide

/-! ## One step -/

/-- The next state of an outcome meets a test. -/
def nextMeets (p : State → Bool) : Host.Outcome State Fault Refusal → Bool
  | .next t => p t
  | .fault _ => false
  | .refused _ => false

/-- A block of a family, with HOST_IE set by the host. -/
def block (f : Family) (pad : List (BitVec 6)) : State :=
  { State.reset with build := { defaultBuild with family := f }, hostIe := true, pad := pad }

/-- A block of a family right after a successful INIT (R105). -/
def session (f : Family) (k : Kind) (pad : List (BitVec 6)) : State :=
  { block f pad with
    initOk := true
    first := true
    kind := k
    linesEn := true
    canon := neutralReport
    last := neutralReport
    lines := idleLines f State.reset.lines }

/-- P1 step 1: INIT of a NES block. -/
theorem test_init_nes : nextMeets (fun t => t.resp = 0x00000000#32 && t.statusWord = 0x00000206#32 &&
    t.canon = ⟨0x80#8, 0x80#8, 0#8⟩ && t.drivenLines = [.latch false, .clk true] && t.hostIe)
    (exec .init (block .nes [])) = true := by decide

/-- P2 step 1: INIT of a DB9 block with a 6-button pad. -/
theorem test_init_genesis6 : nextMeets (fun t => t.resp = 0x00000000#32 && t.statusWord = 0x00000266#32 && t.hostIe)
    (exec .init (block .db9 [0x3F#6, 0x33#6, 0x33#6, 0x30#6, 0x30#6])) = true := by decide

/-- P1 step 6: POLL of a NES block with Right and Start pressed. -/
theorem test_poll_nes : nextMeets (fun t => t.resp = 0x00010000#32 && t.raw.r0 = 0x11#8 &&
    t.canon = ⟨0xFF#8, 0x80#8, 0x08#8⟩ && t.first)
    (exec .poll (session .nes .none [1#6, 1#6, 1#6, 0#6, 1#6, 1#6, 1#6, 0#6])) = true := by decide

/-- P3 step 9: POLL of an SMS pad reads phase 1 only. -/
theorem test_poll_sms : nextMeets (fun t => t.raw = ⟨0x2F#8, 0xFF#8, 0xFF#8, 0xFF#8, 0xFF#8⟩ &&
    t.canon = ⟨0x80#8, 0x80#8, 0x02#8⟩ && t.samples = 1 && t.hostIe)
    (exec .poll (session .db9 .sms [0x2F#6])) = true := by decide

/-- H1 and H2: the first HAS_CHANGED answers 1 although CANON = LAST, and clears FIRST. -/
theorem test_has_changed_first : nextMeets (fun t => t.resp = 0x00020004#32 && !t.first)
    (exec (.hasChanged 0#8) (session .nes .none [])) = true := by decide

/-- H1: the second answers 0. -/
theorem test_has_changed_second : nextMeets (fun t => t.resp = 0x00020000#32)
    (exec (.hasChanged 0#8) { session .nes .none [] with first := false }) = true := by decide

/-- P5 step 3: BUILD_REPORT at 0xFFFE. -/
theorem test_build_report_wraps : nextMeets (fun t => t.resp = 0x00030300#32 && t.last = ⟨0x80#8, 0x00#8, 0x00#8⟩ &&
    t.mem.cells = [(0x0000, 0x00#8), (0xFFFE, 0x80#8), (0xFFFF, 0x00#8)] && t.first)
    (exec (.buildReport 0#8 0xFFFE#16) { session .nes .none [] with canon := ⟨0x80#8, 0x00#8, 0x00#8⟩ }) = true := by
  decide

/-- H4: the null buffer updates LAST and writes no byte. -/
theorem test_build_report_null : nextMeets (fun t => t.resp = 0x00030300#32 && t.last = ⟨0x80#8, 0x80#8, 0x01#8⟩ &&
    t.mem.cells = [])
    (exec (.buildReportNull 0#8) { session .nes .none [] with canon := ⟨0x80#8, 0x80#8, 0x01#8⟩ }) = true := by decide

/-- P3 step 4 and E26: a command before INIT. -/
theorem test_not_init : nextMeets (fun t => t.resp = 0x00010002#32 && t.trace = [])
    (exec .poll (block .db9 [])) = true := by decide

/-- P3 step 6 and E12: an illegal word, from the host's write to the completion. -/
theorem test_illegal_word : nextMeets (fun t => t.resp = 0x00010003#32 && t.host = [] && !t.busy)
    (step { block .db9 [] with host := [⟨0, .writeReg 0#2 0x00000005#32⟩] }) = true := by decide

/-- P3 step 1: STATUS while INIT runs, HOST_IE masked. -/
theorem test_status_while_busy : nextMeets (fun t => t.statusWord = 0x00000241#32 && !t.hostIe)
    (exec .init { block .db9 [] with host := [⟨5, .writeReg 0#2 0x00000001#32⟩] }) = true := by decide

/-- The host's word, stored where the next step takes it, is run as the first command after reset. -/
theorem test_fetch_word : nextMeets (fun t => t.initOk && t.host = [])
    (step (State.reset.withFetchWord 32 0x00000000)) = true := by decide

/-! ## Witnesses: the hypotheses of each statement, met together -/

theorem ready_intro {s : State} (h : s.rst = false ∧ s.busy = false ∧ Config.maxSteps ≤ s.budget) : s.ready := h

/-- A block whose next host operation is given. -/
def withOp (s : State) (op : HostOp) : State := { s with host := [⟨0, op⟩] }

/-- A block in the middle of a NES INIT: the window is open, the lines are driven, the settle is still to come. -/
def running : State :=
  { block .nes [] with
    busy := true
    hostIe := false
    savedIe := true
    linesEn := true
    lines := idleLines .nes State.reset.lines
    fsm := nesInitSteps defaultBuild ++ initOkSteps }

/-- A block that RST holds. -/
def held : State := { State.reset with rst := true }

/-- A BUILD_REPORT whose first two bytes are written when the next host operation lands. -/
def building : State :=
  { session .nes .none [] with host := [⟨3, .readMem 0x0000#16⟩] }

theorem witness_DecodedWordIsTheCommandsWord : decode 0xFFFFFF07#32 = .ok (.buildReport 0xFF#8 0xFFFF#16) := by decide

theorem witness_AssemblerWords : (256 : Nat) ≥ 256 ∧ (65536 : Nat) ≥ 65536 := by decide

theorem witness_StepRunsTheDecodedCommand :
    (withOp (block .nes []) (.writeReg 0#2 0x00004203#32)).host = ⟨0, .writeReg 0#2 0x00004203#32⟩ :: [] ∧
    decode 0x00004203#32 = .ok (.buildReportNull 0x42#8) := by decide

theorem witness_IdleBlockWaits : State.reset.fsm = [] ∧ State.reset.host = [] := by decide

/-- E11 to E13. -/
theorem witness_PatternsDecodeToTheirCommands : (0x00000004#32).extractLsb' 0 3 = 0b100#3 ∧
    (0x00000005#32).extractLsb' 0 3 = 0b101#3 ∧ (0x00000006#32).extractLsb' 0 3 = 0b110#3 := by decide

/-- An illegal word is accepted too. -/
theorem witness_AcceptanceChangesCurBusyAndFsm :
    ({ block .nes [] with host := [⟨0, .writeReg 0#2 0xFFFFFFFF#32⟩, ⟨0, .readReg 2#2⟩] } : State).host =
      ⟨0, .writeReg 0#2 0xFFFFFFFF#32⟩ :: ⟨0, .readReg 2#2⟩ :: [] ∧
    (block .nes []).rst = false ∧ (block .nes []).busy = false := by decide

theorem witness_BusyCommandIsDropped :
    (withOp running (.writeReg 0#2 0x00000001#32)).host = ⟨0, .writeReg 0#2 0x00000001#32⟩ :: [] ∧
    (withOp running (.writeReg 0#2 0x00000001#32)).rst = false ∧
    (withOp running (.writeReg 0#2 0x00000001#32)).busy = true := by decide

theorem witness_IllegalWordCompletesWithErrIllegal :
    ({ withOp (block .db9 []) (.writeReg 0#2 0xFFFFFFFF#32) with
        host := (withOp (block .db9 []) (.writeReg 0#2 0xFFFFFFFF#32)).host.tail } : State).ready ∧
    (withOp (block .db9 []) (.writeReg 0#2 0xFFFFFFFF#32)).host.head? = some ⟨0, .writeReg 0#2 0xFFFFFFFF#32⟩ ∧
    decode 0xFFFFFFFF#32 = .error .notBuildReport := ⟨ready_intro (by decide), by decide, by decide⟩

theorem witness_CommandBeforeInitCompletesWithErrNotInit :
    Instr.poll ≠ .init ∧ (block .db9 []).ready ∧ (block .db9 []).initOk = false :=
  ⟨by decide, ready_intro (by decide), by decide⟩

theorem running_sequenced : Sequenced running := by unfold Sequenced; decide

theorem witness_RunningCommandCompletes : Sequenced running ∧ running.host = [] := ⟨running_sequenced, by decide⟩

theorem witness_InitNesNextState : (block .nes []).ready ∧ (block .nes []).build.family = .nes :=
  ⟨ready_intro (by decide), by decide⟩

theorem witness_InitTg16NextState : (block .tg16 []).ready ∧ (block .tg16 []).build.family = .tg16 :=
  ⟨ready_intro (by decide), by decide⟩

/-- I3. -/
theorem witness_InitDb9NextState :
    (block .db9 [0x3F#6, 0x33#6, 0x33#6, 0x30#6, 0x30#6]).ready ∧
    (block .db9 [0x3F#6, 0x33#6, 0x33#6, 0x30#6, 0x30#6]).build.family = .db9 ∧
    identify .source (db9FullRaw (block .db9 [0x3F#6, 0x33#6, 0x33#6, 0x30#6, 0x30#6]).busAt) = .pad .genesis6 :=
  ⟨ready_intro (by decide), by decide, by decide⟩

/-- I9. -/
theorem witness_InitMultitapNextState :
    (block .db9 [0x33#6, 0x13#6, 0x00#6, 0x00#6, 0x00#6]).ready ∧
    (block .db9 [0x33#6, 0x13#6, 0x00#6, 0x00#6, 0x00#6]).build.family = .db9 ∧
    identify .source (db9FullRaw (block .db9 [0x33#6, 0x13#6, 0x00#6, 0x00#6, 0x00#6]).busAt) = .multiTap :=
  ⟨ready_intro (by decide), by decide, by decide⟩

/-- One RAW for each row of R169: I8, I1, I3, I4, I6, I11 and I13. -/
theorem witness_IdentifyTruthTable :
    identify .source ⟨0x33#8, 0x33#8, 0x33#8, 0x33#8, 0x33#8⟩ = .multiTap ∧
    identify .source ⟨0x3F#8, 0x33#8, 0x3F#8, 0x33#8, 0x33#8⟩ = .pad .genesis3 ∧
    identify .source ⟨0x3F#8, 0x33#8, 0x33#8, 0x30#8, 0x30#8⟩ = .pad .genesis6 ∧
    identify .source ⟨0x3F#8, 0x33#8, 0x33#8, 0x33#8, 0x30#8⟩ = .pad .genesis6 ∧
    identify .source ⟨0x3F#8, 0x3F#8, 0x3F#8, 0x3F#8, 0x3F#8⟩ = .pad .sms ∧
    identify .source ⟨0x3E#8, 0x3F#8, 0x3F#8, 0x3F#8, 0x3F#8⟩ = .pad .sms ∧
    identify .source ⟨0x3E#8, 0x1F#8, 0x3F#8, 0x3F#8, 0x3F#8⟩ = .pad .genesis6 := by decide

theorem witness_PollNesNextState : (session .nes .none []).ready ∧ (session .nes .none []).initOk = true ∧
    (session .nes .none []).build.family = .nes := ⟨ready_intro (by decide), by decide, by decide⟩

/-- R134 at its first and its last sample: N1 and the eighth sample alone low. -/
theorem witness_NesByteBits :
    (nesByte fun k => if k = 0 then 0#1 else 1#1) = 0x80#8 ∧ (nesByte fun k => if k = 7 then 0#1 else 1#1) = 0x01#8 := by
  decide

theorem witness_PollDb9FullNextState : (session .db9 .genesis6 []).ready ∧ (session .db9 .genesis6 []).initOk = true ∧
    (session .db9 .genesis6 []).build.family = .db9 ∧ (session .db9 .genesis6 []).kind ≠ .atari ∧
    (session .db9 .genesis6 []).kind ≠ .sms := ⟨ready_intro (by decide), by decide⟩

theorem witness_PollDb9ShortNextState : (session .db9 .sms []).ready ∧ (session .db9 .sms []).initOk = true ∧
    (session .db9 .sms []).build.family = .db9 ∧
    ((session .db9 .sms []).kind = .atari ∨ (session .db9 .sms []).kind = .sms) := ⟨ready_intro (by decide), by decide⟩

theorem witness_PollDb9ShortNextState_atari : (session .db9 .atari []).ready ∧ (session .db9 .atari []).initOk = true ∧
    (session .db9 .atari []).build.family = .db9 ∧
    ((session .db9 .atari []).kind = .atari ∨ (session .db9 .atari []).kind = .sms) :=
  ⟨ready_intro (by decide), by decide⟩

theorem witness_PollTg16NextState : (session .tg16 .none []).ready ∧ (session .tg16 .none []).initOk = true ∧
    (session .tg16 .none []).build.family = .tg16 := ⟨ready_intro (by decide), by decide⟩

/-- Two states that differ in what a poll must not read, with the same samples: CANON, LAST and FIRST. -/
theorem witness_PollDependsOnlyOnItsSamples :
    ∃ t t', (session .nes .none []).ready ∧ ({ session .nes .none [] with canon := ⟨0#8, 0#8, 1#8⟩, first := false } : State).ready ∧
    (∀ k < 8, (session .nes .none []).lineAt k =
      ({ session .nes .none [] with canon := ⟨0#8, 0#8, 1#8⟩, first := false } : State).lineAt k) ∧
    exec .poll (session .nes .none []) = .next t ∧
    exec .poll { session .nes .none [] with canon := ⟨0#8, 0#8, 1#8⟩, first := false } = .next t' :=
  ⟨_, _, ready_intro (by decide), ready_intro (by decide), fun _ _ => rfl, exec_eq_issue _ _, exec_eq_issue _ _⟩

theorem witness_TranslateDb9Tables : Kind.atari ≠ .none ∧ Kind.sms ≠ .none ∧ Kind.genesis3 ≠ .none ∧ Kind.genesis6 ≠ .none := by
  decide

theorem witness_NothingPressedIsNeutral :
    (⟨0x3F#8, 0x3F#8, 0x3F#8, 0x3F#8, 0x3F#8⟩ : Raw).r0 = 0x3F#8 ∧
    (⟨0x3F#8, 0x3F#8, 0x3F#8, 0x3F#8, 0x3F#8⟩ : Raw).r1 = 0x3F#8 ∧
    (⟨0x3F#8, 0x3F#8, 0x3F#8, 0x3F#8, 0x3F#8⟩ : Raw).r4 = 0x3F#8 ∧
    (⟨0x00#8, 0#8, 0#8, 0#8, 0#8⟩ : Raw).r0 = 0x00#8 ∧ (⟨0xFF#8, 0#8, 0#8, 0#8, 0#8⟩ : Raw).r0 = 0xFF#8 := by decide

/-- For HasChangedNextState, BuildReportNextState, BuildReportStoresTheReport, BuildReportNullNextState and, its memory
being canonical, BuildReportTwiceIsIdempotent. -/
theorem witness_ReportCommands : (session .nes .none []).ready ∧ (session .nes .none []).initOk = true ∧
    (session .nes .none []).mem.wf = true := ⟨ready_intro (by decide), by decide, by decide⟩

/-- The three clauses of CHANGED: FIRST alone, a differing byte alone, and neither. -/
theorem witness_HasChangedNextState :
    ((session .nes .none []).first = true ∧ (session .nes .none []).canon = (session .nes .none []).last) ∧
    (({ session .nes .none [] with first := false, canon := ⟨128#8, 128#8, 1#8⟩ } : State).first = false ∧
      ({ session .nes .none [] with first := false, canon := ⟨128#8, 128#8, 1#8⟩ } : State).canon ≠ neutralReport) ∧
    ({ session .nes .none [] with first := false } : State).first = false := by decide

/-- R64: the last buffer address whose bytes wrap is met at 0xFFFF and 0x0000. -/
theorem witness_BuildReportStoresTheReport :
    (reportAddr 0xFFFE#16 0).toNat = 0xFFFE ∧ (reportAddr 0xFFFE#16 1).toNat = 0xFFFF ∧
    (reportAddr 0xFFFE#16 2).toNat = 0x0000 ∧ ∀ i : Fin 3, (0x0001 : Nat) ≠ (reportAddr 0xFFFE#16 i).toNat := by decide

theorem witness_BuildThenHasChangedIsUnchanged :
    ({ session .nes .none [] with first := false } : State).ready ∧
    ({ session .nes .none [] with first := false } : State).initOk = true ∧
    ({ session .nes .none [] with first := false } : State).first = false ∧
    (∃ rid addr, Instr.buildReport 0#8 0x0100#16 = .buildReport rid addr) ∧
    (∃ rid, Instr.buildReportNull 0#8 = .buildReportNull rid) :=
  ⟨ready_intro (by decide), by decide, by decide, ⟨_, _, rfl⟩, ⟨_, rfl⟩⟩

theorem witness_RegisterReads : (block .nes []).fsm = [] ∧
    ∀ i : BitVec 2, (withOp (block .nes []) (.readReg i)).host = ⟨0, .readReg i⟩ :: [] := by decide

theorem witness_OtherRegisterWritesAreIgnored : 1#2 ≠ 0#2 ∧ 2#2 ≠ 0#2 ∧ 3#2 ≠ 0#2 ∧ ∀ i : BitVec 2,
    (withOp (block .nes []) (.writeReg i 0x00000001#32)).host = ⟨0, .writeReg i 0x00000001#32⟩ :: [] := by decide

theorem witness_NarrowAccessIsRefused :
    (withOp (block .nes []) .narrowAccess).host = ⟨0, .narrowAccess⟩ :: [] := by decide

/-- A BUILD_REPORT met by a host read when its first two bytes are written and its third is not. -/
theorem witness_BufferReadWhileBusyIsOldOrNew : ∃ t, Sequenced building ∧ building.rst = false ∧ building.busy = false ∧
    building.initOk = true ∧ exec (.buildReport 0#8 0x0000#16) building = .next t ∧ t.busy = true ∧
    t.mem.read 1 = some 128#8 ∧ t.mem.read 2 = none :=
  ⟨issue (encode (.buildReport 0#8 0x0000#16)) building, by unfold Sequenced; decide, by decide, by decide, by decide,
    exec_eq_issue _ _, by decide, by decide, by decide⟩

theorem witness_ResetAbandonsTheCommand :
    (withOp running (.setRst true)).host = ⟨0, .setRst true⟩ :: [] ∧ (withOp running (.setRst true)).busy = true := by
  decide

theorem witness_ResetReleaseHoldsTheResetValues :
    (withOp held (.setRst false)).rst = true ∧ (withOp held (.setRst false)).host = ⟨0, .setRst false⟩ :: [] := by decide

/-- A block with one byte of host memory written. -/
def written (op : HostOp) : State := withOp { block .nes [] with mem := ⟨[(0x0100, 0x80#8)]⟩ } op

/-- Each operation meets the hypotheses; 0x0100 is written and 0xFFFF is not. -/
theorem witness_HostOperationsOnAnIdleBlock : ∀ op, Sequenced (written op) ∧ (written op).fsm = [] ∧
    (written op).host = ⟨0, op⟩ :: [] ∧ (written op).mem.read (0x0100#16).toNat = some 0x80#8 ∧
    (written op).mem.read (0xFFFF#16).toNat = none :=
  fun _ => ⟨⟨⟨fun h => Bool.noConfusion h, fun h => absurd rfl h⟩, rfl, Nat.zero_le _, fun _ => rfl⟩, rfl, rfl, rfl, rfl⟩

theorem witness_RstHoldsIsKept : ∃ t, RstHolds held ∧ held.rst = true ∧ step held = .next t :=
  ⟨_, fun _ => by decide, by decide, rfl⟩

/-- Each command from a block with none running. -/
theorem witness_OnlyTheNamedCommandsWrite : (session .nes .none []).busy = false ∧ (session .nes .none []).fsm = [] ∧
    ∀ i : Instr, ∃ t, exec i (session .nes .none []) = .next t :=
  ⟨by decide, by decide, fun i => ⟨_, exec_eq_issue i _⟩⟩

theorem witness_WindowCloseOverwritesHostIe :
    (doAct .maskIrq (block .db9 [])).savedIe = (block .db9 []).hostIe := by decide

/-- The invariants hold in a running state, whose step goes on. -/
theorem witness_Invariants : ∃ t, step running = .next t ∧ MemoryCanonical running ∧ Sequenced running ∧
    ReportsLegal running ∧ LinesSettle running ∧ WindowsClose running ∧ RespReservedZero running := by
  refine ⟨run running, rfl, ?_, running_sequenced, ?_, ⟨running_sequenced, fun _ => ?_⟩, ⟨true, by decide⟩, ?_⟩
  · show running.mem.wf = true
    decide
  · unfold ReportsLegal KindLegal axesLegal axisLegal
    exact ⟨⟨by decide, by decide, by decide, by decide, by decide⟩, by decide⟩
  · show _ ∧ _
    decide
  · show respReservedZero running.resp = true
    decide

end Sys2Proof.Tests
end

section
/-! SUPPORT. What the host's operations and the sequencer's steps come to, and the agreement of BUSY and the sequencer:
every command's steps come to a completion within one step of the model (R22, R23, R103). -/

namespace Sys2Proof.Machine

/-! ## What a step does with each host operation -/

/-- The next host operation lands, and it is taken off the list. -/
theorem step_of_host {s : State} {n : Nat} {op : HostOp} {rest : List Arrival} (h : s.host = ⟨n, op⟩ :: rest) :
    step s = serve op { s with host := rest } := by
  simp only [step, serveNext, h]

theorem run_idle {s : State} (h : s.fsm = []) : run s = s := runFor_idle _ s h

/-- A write to CMD is ignored while RST holds, dropped while BUSY = 1, or accepted (R100, R101, R260). -/
theorem writeCmd_cases (w : Word) (s : State) :
    writeCmd w s = s ∨ (s.busy = true ∧ writeCmd w s = { s with drop := true }) ∨
    (s.busy = false ∧ writeCmd w s = { s with cur := w, busy := true, fsm := [.check] }) := by
  unfold writeCmd
  split
  · exact .inl rfl
  · split
    · rename_i hb
      exact .inr (.inl ⟨hb, rfl⟩)
    · rename_i hb
      exact .inr (.inr ⟨Bool.eq_false_iff.2 hb, rfl⟩)

/-- A host read writes the read's data and counts a race, nothing else (R70). -/
theorem hostReadMem_cases (addr : Addr) (s : State) :
    ∃ d n, hostReadMem addr s = { s with rdata := d, races := n } := by
  unfold hostReadMem
  split <;> exact ⟨_, _, rfl⟩

/-- RST changes nothing while it stays released; else it holds the block, and its level and the trace are its own (R260). -/
theorem setRst_cases (v : Bool) (s : State) :
    setRst v s = s ∨ ∃ r tr, setRst v s = { holdReset s with rst := r, trace := tr } := by
  unfold setRst
  split
  · split <;> exact .inr ⟨_, _, rfl⟩
  · split
    · exact .inr ⟨_, _, rfl⟩
    · exact .inl rfl

/-- A property is kept by every step if a sequencer step keeps it and so do the effects the host's operations come to. -/
theorem kept_of_cases {P : State → Prop} (hfsm : ∀ s, P s → P (fsmStep s))
    (hport : ∀ s host rdata races hostIe, P s →
      P { s with host := host, rdata := rdata, races := races, hostIe := hostIe })
    (hdrop : ∀ s, P s → P { s with drop := true })
    (haccept : ∀ w s, P s → P { s with cur := w, busy := true, fsm := [.check] })
    (hwrite : ∀ a v s, P s → P (hostWriteMem a v s))
    (hreset : ∀ s r tr, P s → P { holdReset s with rst := r, trace := tr }) : Kept P where
  fsm := hfsm
  pop s rest := hport s rest s.rdata s.races s.hostIe
  cmd w s h := by
    rcases writeCmd_cases w s with he | ⟨-, he⟩ | ⟨-, he⟩ <;> rw [he]
    · exact h
    · exact hdrop s h
    · exact haccept w s h
  readReg i s := hport s s.host (regRead i s) s.races s.hostIe
  readMem a s h := by
    obtain ⟨d, n, he⟩ := hostReadMem_cases a s
    rw [he]
    exact hport s s.host d n s.hostIe h
  writeMem := hwrite
  writeIe v s := hport s s.host s.rdata s.races v
  rst v s h := by
    rcases setRst_cases v s with he | ⟨r, tr, he⟩ <;> rw [he]
    · exact h
    · exact hreset s r tr h

/-! ## The steps still to be taken -/

/-- A step that does not end its table goes on with the steps that follow it, a wait with its cycles first (R39). -/
theorem doAct_fsm_of_straight {a : Act} (s : State) (h : straight a = true) :
    (doAct a s).fsm = s.fsm ∨ (doAct a s).fsm = .count :: s.fsm ∧ ∃ us, a = .wait us := by
  cases a with
  | wait us => exact .inr ⟨rfl, us, rfl⟩
  | check | complete | identify | compare => simp [straight, endsTable] at h
  | _ => exact .inl rfl

theorem properSteps_cons {a : Act} {rest : List Act} (h : properSteps (a :: rest) = true) :
    (endsTable a = true ∧ rest = []) ∨ (straight a = true ∧ rest ≠ [] ∧ properSteps rest = true) := by
  cases rest with
  | nil => exact .inl ⟨h, rfl⟩
  | cons b rest =>
    obtain ⟨ha, hr⟩ := Bool.and_eq_true_iff.1 h
    exact .inr ⟨ha, List.cons_ne_nil _ _, hr⟩

theorem stepCost_pos (a : Act) : 0 < stepCost a := by cases a <;> simp [stepCost]

/-- A table a command can put in place: it has steps, they come to a completion, and they cost less than the checks that
put it there. -/
def tableSound (l : List Act) : Bool := !l.isEmpty && properSteps l && decide (stepsCost l < 100)

theorem tableSound_iff (l : List Act) :
    tableSound l = true ↔ l ≠ [] ∧ properSteps l = true ∧ stepsCost l < 100 := by
  simp [tableSound, and_assoc]

theorem stepsOf_sound (i : Instr) (s : State) : tableSound (stepsOf i s) = true := by
  cases i with
  | init =>
    simp only [stepsOf, initSteps]
    cases s.build.family <;>
      simp [tableSound, initHeadSteps, nesInitSteps, tg16InitSteps, db9InitSteps, db9ReadFullSteps, pulseSteps, selSteps,
        initOkSteps, properSteps, endsTable, stepsCost, stepCost]
  | poll =>
    simp only [stepsOf, pollSteps, readSteps]
    cases s.build.family with
    | db9 =>
      dsimp only
      split <;>
        simp [tableSound, db9ReadFullSteps, db9ReadShortSteps, pulseSteps, selSteps, properSteps, endsTable, stepsCost,
          stepCost]
    | nes =>
      simp [tableSound, nesReadSteps, nesBitsSteps, nesBitSteps, Config.nesBits, properSteps, endsTable, stepsCost,
        stepCost]
    | tg16 => simp [tableSound, tg16ReadSteps, properSteps, endsTable, stepsCost, stepCost]
  | hasChanged | buildReport | buildReportNull => rfl

theorem checkedSteps_sound (s : State) : tableSound (checkedSteps s) = true := by
  unfold checkedSteps
  split
  · rfl
  · split
    · rfl
    · exact stepsOf_sound _ s

theorem branchOnIdentity_fsm (s : State) :
    (branchOnIdentity s).fsm = initFailSteps ∨ (branchOnIdentity s).fsm = initOkSteps := by
  unfold branchOnIdentity
  split
  · exact .inl rfl
  · exact .inr rfl

/-- What a step that ends its table leaves to be taken: nothing after a completion, else a sound table of lesser cost. -/
theorem doAct_fsm_of_endsTable {a : Act} (s : State) (h : endsTable a = true) :
    (∃ code changed n, a = .complete code changed n) ∨
    (tableSound (doAct a s).fsm = true ∧ stepsCost (doAct a s).fsm < stepCost a) := by
  cases a with
  | complete code changed n => exact .inl ⟨code, changed, n, rfl⟩
  | check =>
    obtain ⟨-, -, hc⟩ := (tableSound_iff _).1 (checkedSteps_sound s)
    exact .inr ⟨checkedSteps_sound s, hc⟩
  | identify =>
    right
    show tableSound (branchOnIdentity s).fsm = true ∧ stepsCost (branchOnIdentity s).fsm < _
    rcases branchOnIdentity_fsm s with he | he <;> rw [he] <;> exact ⟨rfl, by decide⟩
  | compare => exact .inr ⟨rfl, by simp [doAct, compareReports, stepsCost, stepCost]⟩
  | _ => exact absurd h (by simp [endsTable])

/-- A step of a proper table completes the command, or leaves a proper table of lesser cost to be taken. -/
theorem doAct_leaves {a : Act} {s : State} (h : properSteps (a :: s.fsm) = true) :
    (∃ code changed n, a = .complete code changed n) ∨
    ((doAct a s).fsm ≠ [] ∧ properSteps (doAct a s).fsm = true ∧
      stepsCost (doAct a s).fsm < stepsCost (a :: s.fsm)) := by
  rcases properSteps_cons h with ⟨hend, hnil⟩ | ⟨hstr, hne, hp⟩
  · refine (doAct_fsm_of_endsTable s hend).imp_right fun ⟨hsound, hlt⟩ => ?_
    obtain ⟨hn, hproper, -⟩ := (tableSound_iff _).1 hsound
    exact ⟨hn, hproper, by simpa [hnil, stepsCost] using hlt⟩
  · right
    rcases doAct_fsm_of_straight s hstr with he | ⟨he, us, rfl⟩ <;> rw [he]
    · exact ⟨hne, hp, Nat.lt_add_of_pos_left (stepCost_pos a)⟩
    · refine ⟨List.cons_ne_nil _ _, ?_, by simp [stepsCost, stepCost]⟩
      obtain ⟨b, r, hbr⟩ := List.exists_cons_of_ne_nil hne
      rw [hbr] at hp ⊢
      simpa [properSteps, endsTable] using hp

/-! ## The members of the step tables -/

/-- The steps that work the lines and the readers' own registers. -/
def worksLines : Act → Bool
  | .drive _ | .wait _ | .clearShift | .sampleData | .storeShift | .samplePhase _ | .invalidatePhases | .sampleBankA
  | .sampleBankB | .storeBanks => true
  | _ => false

theorem db9ReadFullSteps_worksLines (l : Literals) : ∀ a ∈ db9ReadFullSteps l, worksLines a = true := by
  simp [db9ReadFullSteps, pulseSteps, selSteps, worksLines]

theorem readSteps_worksLines (b : Build) (k : Kind) : ∀ a ∈ readSteps b k, worksLines a = true := by
  unfold readSteps
  split
  · simp [nesReadSteps, nesBitsSteps, nesBitSteps, Config.nesBits, worksLines]
  · simp [tg16ReadSteps, worksLines]
  · split
    · simp [db9ReadShortSteps, selSteps, worksLines]
    · exact db9ReadFullSteps_worksLines _

/-- INIT's table is its head, its family's body, and its plain end or, for DB9, the identification (R104). -/
theorem mem_initSteps {b : Build} {a : Act} (h : a ∈ initSteps b) :
    a ∈ initHeadSteps ∨ worksLines a = true ∨ (b.family ≠ .db9 ∧ a ∈ initOkSteps) ∨
      (b.family = .db9 ∧ a = .identify) := by
  have hwait : ∀ us, a ∈ [Act.wait us] → worksLines a = true := by
    intro us ha
    obtain rfl := List.mem_singleton.1 ha
    rfl
  have hread := db9ReadFullSteps_worksLines b.literals a
  unfold initSteps at h
  split at h <;> rename_i hf
  · have hbody := hwait b.tInitNesUs
    simp only [nesInitSteps, List.mem_append] at h
    have hne : b.family ≠ .db9 := by simp [hf]
    tauto
  · have hbody := hwait b.tInitTg16Us
    simp only [tg16InitSteps, List.mem_append] at h
    have hne : b.family ≠ .db9 := by simp [hf]
    tauto
  · have hbody := hwait (b.literals.tDb9InitMs * 1000)
    have hlast : a ∈ [Act.identify] → a = .identify := List.mem_singleton.1
    simp only [db9InitSteps, List.mem_append] at h
    tauto

/-- POLL's table is its read, in a masking window for DB9, the translation and the completion (R107). -/
theorem mem_pollSteps {b : Build} {k : Kind} {a : Act} (h : a ∈ pollSteps b k) :
    worksLines a = true ∨ a ∈ [.maskIrq, .restoreIrq, .translate, .complete .ok false 0#8] := by
  have hread := readSteps_worksLines b k a
  unfold pollSteps at h
  split at h <;> simp only [List.mem_append, List.mem_cons] at h ⊢ <;> tauto

/-! ## BUSY and the sequencer -/

theorem sequenced_of_running {s : State} (hbusy : s.busy = true) (hne : s.fsm ≠ []) (hproper : properSteps s.fsm = true)
    (hcost : stepsCost s.fsm ≤ Config.maxSteps) : Sequenced s :=
  ⟨iff_of_true hbusy hne, hproper, hcost, fun hs => absurd hs hne⟩

/-- One sequencer step of a command keeps BUSY and the sequencer in agreement, and what is left costs less. -/
theorem sequenced_doAct {s : State} {a : Act} {rest : List Act} (h : Sequenced s) (hs : s.fsm = a :: rest) :
    Sequenced (doAct a { s with fsm := rest }) ∧
      stepsCost (doAct a { s with fsm := rest }).fsm < stepsCost s.fsm := by
  obtain ⟨hbusy, hproper, hcost, -⟩ := h
  have hb : s.busy = true := hbusy.2 (hs ▸ List.cons_ne_nil a rest)
  rw [hs] at hproper hcost ⊢
  rcases doAct_leaves (s := { s with fsm := rest }) hproper with ⟨code, changed, n, rfl⟩ | ⟨hne, hproper', hlt⟩
  · exact ⟨⟨by simp [doAct], rfl, Nat.zero_le _, fun _ => rfl⟩,
      Nat.lt_of_lt_of_le (stepCost_pos _) (Nat.le_add_right _ _)⟩
  · refine ⟨sequenced_of_running ?_ hne hproper' (hlt.le.trans hcost), hlt⟩
    rwa [doAct_busy]
    rintro code changed n rfl
    exact hne rfl

theorem sequenced_fsmStep {s : State} (h : Sequenced s) : Sequenced (fsmStep s) := by
  rcases fsmStep_cases s with ⟨-, he⟩ | ⟨a, rest, hs, he⟩ <;> rw [he]
  · exact h
  · exact (sequenced_doAct h hs).1

theorem stepsCost_fsmStep {s : State} (h : Sequenced s) : stepsCost (fsmStep s).fsm ≤ stepsCost s.fsm - 1 := by
  rcases fsmStep_cases s with ⟨hs, he⟩ | ⟨a, rest, hs, he⟩ <;> rw [he]
  · simp [hs, stepsCost]
  · have := (sequenced_doAct h hs).2
    omega

/-- A command whose remaining steps cost at most `n` is over after `n` of them. -/
theorem runFor_completes {n : Nat} {s : State} (h : Sequenced s) (hn : stepsCost s.fsm ≤ n) : (runFor n s).fsm = [] := by
  induction n generalizing s with
  | zero =>
    cases hs : s.fsm with
    | nil => exact hs
    | cons a rest =>
      rw [hs] at hn
      have := stepCost_pos a
      simp only [stepsCost] at hn
      omega
  | succ n ih =>
    rw [runFor_succ]
    have := stepsCost_fsmStep h
    exact ih (sequenced_fsmStep h) (by omega)

theorem sequenced_kept : Kept Sequenced :=
  kept_of_cases
    (hfsm := fun _ => sequenced_fsmStep)
    (hport := fun _ _ _ _ _ h => h)
    (hdrop := fun _ h => h)
    (haccept := fun _ _ _ =>
      sequenced_of_running rfl (List.cons_ne_nil _ _) rfl (by simp [stepsCost, stepCost, Config.maxSteps]))
    (hwrite := fun _ _ _ ⟨hbusy, hproper, hcost, hold⟩ =>
      ⟨hbusy, hproper, hcost, fun hs => by simp [hostWriteMem, hold hs]⟩)
    (hreset := fun _ _ _ _ => ⟨by simp [holdReset, State.reset], rfl, Nat.zero_le _, fun _ => rfl⟩)

/-- Settles O55: every way of a step keeps the agreement, a sequencer step because it leaves a table that is proper and
costs less. -/
theorem sequencedIsKept : Obligations.SequencedIsKept :=
  fun _ _ h hst => sequenced_kept.step h hst

theorem run_completes {s : State} (h : Sequenced s) (hhost : s.host = []) : (run s).fsm = [] := by
  have ⟨_, _, hcost, _⟩ := h
  exact runFor_completes h (by simpa [State.budget, hhost] using hcost)

/-- Settles O12: the remaining steps cost at most the bound of one model step, and each one taken makes them cheaper; a
sequencer that is done agrees with BUSY = 0. -/
theorem runningCommandCompletes : Obligations.RunningCommandCompletes := by
  intro s h hhost
  have hidle : (run s).fsm = [] := run_completes h hhost
  obtain ⟨hbusy, -⟩ := run_keeps Sequenced (fun _ => sequenced_fsmStep) s h
  exact ⟨run s, by simp [step, serveNext, hhost], Bool.eq_false_iff.2 fun hb => hbusy.1 hb hidle, hidle⟩

end Sys2Proof.Machine
end

section
/-! SUPPORT. KIND and the axes of CANON and LAST stay legal (R31, R34, R167, R193, R201). -/

namespace Sys2Proof.Machine

/-! ## KIND -/

/-- The steps that read or write KIND, or promise that it is known. -/
def touchesKind : Act → Bool
  | .clearSession | .identify | .setInitOk | .translate => true
  | _ => false

/-- With KIND kept, a session begun by nothing but `setInitOk`, and no new step that touches KIND, KIND stays legal. -/
theorem KindLegal.of_fewer {s t : State} (h : KindLegal s) (hb : t.build = s.build) (hk : t.kind = s.kind)
    (hi : t.initOk = true → s.initOk = true ∨ .setInitOk ∈ s.fsm)
    (hf : ∀ a ∈ t.fsm, touchesKind a = true → a ∈ s.fsm) : KindLegal t := by
  obtain ⟨hatari, hother, hident, hnone, hclear⟩ := h
  rw [KindLegal, hb, hk]
  refine ⟨hatari, hother, fun ha => hident (hf _ ha rfl), fun hd ha => hnone hd ?_, fun hd ha => ?_⟩
  · rcases ha with ha | ha | ha
    · exact (hi ha).imp_right .inl
    · exact .inr (.inl (hf _ ha rfl))
    · exact .inr (.inr (hf _ ha rfl))
  · obtain ⟨hno, hno'⟩ := hclear hd (hf _ ha rfl)
    exact ⟨fun hs => hno (hf _ hs rfl), fun ht => hno' (hf _ ht rfl)⟩

/-- Of what a step leaves to be taken, only the checks and the identification put new steps in place that touch KIND. -/
theorem mem_doAct_fsm {a b : Act} {s : State} (hcheck : a ≠ .check) (hident : a ≠ .identify)
    (hb : b ∈ (doAct a s).fsm) (ht : touchesKind b = true) : b ∈ s.fsm := by
  by_cases hstr : straight a = true
  · rcases doAct_fsm_of_straight s hstr with he | ⟨he, -⟩ <;> rw [he] at hb
    · exact hb
    · rcases List.mem_cons.1 hb with rfl | hb
      · simp [touchesKind] at ht
      · exact hb
  · cases a with
    | complete => simp [doAct] at hb
    | compare =>
      have hb' : b = .clearFirst ∨ b = .complete .ok (changedNow s) 0#8 := by
        simpa [doAct, compareReports] using hb
      rcases hb' with rfl | rfl <;> simp [touchesKind] at ht
    | check | identify => contradiction
    | _ => simp [straight, endsTable] at hstr

/-- Where the steps that touch KIND stand in the step tables (R104, R105, R107). -/
theorem stepsOf_touchesKind {i : Instr} {s : State} {a : Act} (h : a ∈ stepsOf i s) (ht : touchesKind a = true) :
    (i = .init ∧ (a = .clearSession ∨ (a = .identify ∧ s.build.family = .db9) ∨
      (a = .setInitOk ∧ s.build.family ≠ .db9))) ∨ (i = .poll ∧ a = .translate) := by
  have hlines : worksLines a ≠ true := by
    intro hw
    cases a <;> simp [worksLines, touchesKind] at hw ht
  cases i with
  | init =>
    have hhead : ∀ a ∈ initHeadSteps, touchesKind a = true → a = .clearSession := by simp [initHeadSteps, touchesKind]
    have hend : ∀ a ∈ initOkSteps, touchesKind a = true → a = .setInitOk := by simp [initOkSteps, touchesKind]
    refine .inl ⟨rfl, ?_⟩
    rcases mem_initSteps h with h | h | ⟨hf, h⟩ | ⟨hf, rfl⟩
    · exact .inl (hhead a h ht)
    · exact absurd h hlines
    · exact .inr (.inr ⟨hend a h ht, hf⟩)
    · exact .inr (.inl ⟨rfl, hf⟩)
  | poll =>
    have hend : ∀ a ∈ [.maskIrq, .restoreIrq, .translate, .complete .ok false 0#8],
        touchesKind a = true → a = .translate := by simp [touchesKind]
    exact .inr ⟨rfl, (mem_pollSteps h).elim (fun h => absurd h hlines) fun h => hend a h ht⟩
  | hasChanged rid =>
    have hnone : ∀ a ∈ hasChangedSteps, touchesKind a ≠ true := by simp [hasChangedSteps, touchesKind]
    exact absurd ht (hnone a h)
  | buildReport rid addr =>
    have hnone : ∀ a ∈ buildReportSteps addr, touchesKind a ≠ true := by
      simp [buildReportSteps, emitReportSteps, touchesKind]
    exact absurd ht (hnone a h)
  | buildReportNull rid =>
    have hnone : ∀ a ∈ buildReportNullSteps, touchesKind a ≠ true := by
      simp [buildReportNullSteps, emitReportSteps, touchesKind]
    exact absurd ht (hnone a h)

/-- The checks put a command's own steps in place only when it may run: a step that is no completion is of the table of
the command in CUR, which INIT_OK admits (R102). -/
theorem mem_checkedSteps {s : State} {a : Act} (h : a ∈ checkedSteps s)
    (ha : ∀ code changed n, a ≠ .complete code changed n) :
    ∃ i, decode s.cur = .ok i ∧ a ∈ stepsOf i s ∧ (needsInit i = true → s.initOk = true) := by
  unfold checkedSteps at h
  split at h
  · exact absurd (List.mem_singleton.1 h) (ha _ _ _)
  · rename_i i hi
    split at h
    · exact absurd (List.mem_singleton.1 h) (ha _ _ _)
    · rename_i hrun
      exact ⟨i, hi, h, by simpa using hrun⟩

/-- The checks put only steps in place that keep KIND legal: INIT of a DB9 block identifies before it begins the session,
and POLL translates only once a session has begun (R102, R104, R107). -/
theorem kindLegal_check {s : State} (h : KindLegal s) : KindLegal { s with fsm := checkedSteps s } := by
  obtain ⟨hatari, hother, -, hnone, -⟩ := h
  have hsetInitOk : s.build.family = .db9 → .setInitOk ∉ checkedSteps s := by
    intro hd hm
    obtain ⟨i, -, hm, -⟩ := mem_checkedSteps hm (by simp)
    simpa [hd] using stepsOf_touchesKind hm rfl
  have htranslate : .translate ∈ checkedSteps s → decode s.cur = .ok .poll ∧ s.initOk = true := by
    intro hm
    obtain ⟨i, hi, hm, hrun⟩ := mem_checkedSteps hm (by simp)
    obtain rfl : i = .poll := by simpa using stepsOf_touchesKind hm rfl
    exact ⟨hi, hrun rfl⟩
  refine ⟨hatari, hother, fun hm => ?_, fun hd hm => hnone hd (.inl ?_), fun hd hm => ⟨hsetInitOk hd, fun ht => ?_⟩⟩
  · obtain ⟨i, -, hm, -⟩ := mem_checkedSteps hm (by simp)
    obtain ⟨-, hd⟩ : i = .init ∧ s.build.family = .db9 := by simpa using stepsOf_touchesKind hm rfl
    exact hd
  · rcases hm with hm | hm | hm
    · exact hm
    · exact absurd hm (hsetInitOk hd)
    · exact (htranslate hm).2
  · obtain ⟨i, hi, hm, -⟩ := mem_checkedSteps hm (by simp)
    obtain rfl : i = .init := by simpa using stepsOf_touchesKind hm rfl
    obtain ⟨hp, -⟩ := htranslate ht
    simp [hi] at hp

/-- The kinds an identification gives (R167). -/
theorem identify_pad {l : Literals} {r : Raw} {k : Kind} (h : identify l r = .pad k) : k ≠ .none ∧ k ≠ .atari := by
  unfold identify classify at h
  split_ifs at h <;> cases h <;> decide

theorem kindLegal_identify {s : State} {rest : List Act} (h : KindLegal s) (hs : s.fsm = .identify :: rest) :
    KindLegal (branchOnIdentity { s with fsm := rest }) := by
  have hd : s.build.family = .db9 := by
    obtain ⟨-, -, hident, -, -⟩ := h
    exact hident (hs ▸ List.mem_cons_self)
  unfold branchOnIdentity
  split
  · exact h.of_fewer rfl rfl .inl (by simp [initFailSteps, touchesKind])
  · rename_i k hk
    obtain ⟨hnone, hatari⟩ := identify_pad hk
    exact ⟨hatari, fun hn => absurd hd hn, fun _ => hd, fun _ _ => hnone, by simp [initOkSteps]⟩

theorem kindLegal_clearSession {s : State} {rest : List Act} (h : KindLegal s) (hs : s.fsm = .clearSession :: rest) :
    KindLegal (clearSession { s with fsm := rest }) := by
  obtain ⟨-, -, hident, -, hclear⟩ := h
  rw [hs] at hident hclear
  refine ⟨by simp [clearSession], fun _ => rfl, fun ha => hident (List.mem_cons_of_mem _ ha), fun hd ha => ?_,
    fun hd _ => ?_⟩
  all_goals obtain ⟨hno, hno'⟩ := hclear hd List.mem_cons_self
  · rcases ha with ha | ha | ha
    · simp [clearSession] at ha
    · exact absurd (List.mem_cons_of_mem _ ha) hno
    · exact absurd (List.mem_cons_of_mem _ ha) hno'
  · exact ⟨fun hs => hno (List.mem_cons_of_mem _ hs), fun ht => hno' (List.mem_cons_of_mem _ ht)⟩

theorem kindLegal_doAct {s : State} {a : Act} {rest : List Act} (h : KindLegal s) (hs : s.fsm = a :: rest) :
    KindLegal (doAct a { s with fsm := rest }) := by
  have hrest : KindLegal { s with fsm := rest } :=
    h.of_fewer rfl rfl .inl fun b hb _ => hs ▸ List.mem_cons_of_mem a hb
  by_cases hcheck : a = .check
  · subst hcheck; exact kindLegal_check hrest
  by_cases hident : a = .identify
  · subst hident; exact kindLegal_identify h hs
  by_cases hclear : a = .clearSession
  · subst hclear; exact kindLegal_clearSession h hs
  refine h.of_fewer (doAct_build _ _) (doAct_kind _ hclear hident) (fun hi => ?_) fun b hb ht =>
    hs ▸ List.mem_cons_of_mem a (mem_doAct_fsm hcheck hident hb ht)
  by_cases hset : a = .setInitOk
  · exact .inr (by simp [hs, hset])
  · exact .inl (by rwa [doAct_initOk _ hclear hset] at hi)

/-! ## The axes of CANON and LAST -/

theorem axis_legal (minBit maxBit : Bool) : axisLegal (axis minBit maxBit) := by
  cases minBit <;> cases maxBit <;> simp [axis, axisLegal]

theorem canonOf_axesLegal (b : Buttons) : axesLegal (canonOf b) := ⟨axis_legal _ _, axis_legal _ _⟩

theorem neutralReport_axesLegal : axesLegal neutralReport := ⟨.inr (.inl rfl), .inr (.inl rfl)⟩

/-- Every table of Translate gives legal axes; only FAMILY = DB9 with KIND = NONE has no table (R193, R201). -/
theorem translateRaw_axesLegal {f : Family} {k : Kind} (r : Raw) (h : f = .db9 → k ≠ .none) :
    axesLegal (translateRaw f k r) := by
  cases f with
  | nes | tg16 => exact canonOf_axesLegal _
  | db9 =>
    cases k with
    | none => exact absurd rfl (h rfl)
    | atari | sms | genesis3 | genesis6 => exact canonOf_axesLegal _

theorem canon_axesLegal_doAct {s : State} {a : Act} {rest : List Act} (h : ReportsLegal s) (hs : s.fsm = a :: rest) :
    axesLegal (doAct a { s with fsm := rest }).canon := by
  obtain ⟨⟨-, -, -, hnone, -⟩, hcanon, -⟩ := h
  by_cases hneutral : a = .neutralCanon
  · subst hneutral; exact neutralReport_axesLegal
  by_cases htr : a = .translate
  · subst htr
    exact translateRaw_axesLegal _ fun hd => hnone hd (.inr (.inr (hs ▸ List.mem_cons_self)))
  · rw [doAct_canon _ hneutral htr]; exact hcanon

theorem last_axesLegal_doAct {s : State} (a : Act) (hcanon : axesLegal s.canon) (hlast : axesLegal s.last) :
    axesLegal (doAct a s).last := by
  by_cases hneutral : a = .neutralLast
  · subst hneutral; exact neutralReport_axesLegal
  by_cases hcopy : a = .copyLast
  · subst hcopy; exact hcanon
  · rw [doAct_last _ hneutral hcopy]; exact hlast

theorem reportsLegal_fsmStep {s : State} (h : ReportsLegal s) : ReportsLegal (fsmStep s) := by
  rcases fsmStep_cases s with ⟨-, he⟩ | ⟨a, rest, hs, he⟩ <;> rw [he]
  · exact h
  · have ⟨hkind, hcanon, hlast⟩ := h
    exact ⟨kindLegal_doAct hkind hs, canon_axesLegal_doAct h hs, last_axesLegal_doAct a hcanon hlast⟩

/-- Reset holds KIND = NONE with no session, and both reports at 0 (R260, log 3). -/
theorem reportsLegal_holdReset (s : State) (r : Bool) (tr : List Event) :
    ReportsLegal { holdReset s with rst := r, trace := tr } :=
  ⟨by simp [KindLegal, holdReset, State.reset], ⟨.inl rfl, .inl rfl⟩, ⟨.inl rfl, .inl rfl⟩⟩

theorem reportsLegal_kept : Kept ReportsLegal :=
  kept_of_cases
    (hfsm := fun _ => reportsLegal_fsmStep)
    (hport := fun _ _ _ _ _ h => h)
    (hdrop := fun _ h => h)
    (haccept := fun _ _ ⟨hkind, haxes⟩ => ⟨hkind.of_fewer rfl rfl .inl (by simp [touchesKind]), haxes⟩)
    (hwrite := fun _ _ _ h => h)
    (hreset := fun s r tr _ => reportsLegal_holdReset s r tr)

/-- Settles O56: KIND is written by INIT alone, which identifies a pad before it begins the session, and CANON is a table's
report or neutral. -/
theorem reportsLegalIsKept : Obligations.ReportsLegalIsKept :=
  fun _ _ h hst => reportsLegal_kept.step h hst

end Sys2Proof.Machine
end

section
/-! SUPPORT. Host memory, RESP and the register interface, and what each command writes (R20, R24 to R42). -/

namespace Sys2Proof.Machine

/-! ## Host memory and RESP -/

theorem memoryCanonical_fsmStep {s : State} (h : MemoryCanonical s) : MemoryCanonical (fsmStep s) := by
  rcases fsmStep_cases s with ⟨-, he⟩ | ⟨a, rest, -, he⟩ <;> rw [he]
  · exact h
  · by_cases hw : ∃ addr i, a = .memWrite addr i
    · obtain ⟨addr, i, rfl⟩ := hw
      exact doMemWrite_keeps_wf addr i _ h
    · have hm := doAct_mem { s with fsm := rest } fun addr i ha => hw ⟨addr, i, ha⟩
      rwa [MemoryCanonical, hm]

/-- Settles O54: the block's writes and the host's are at 16-bit addresses, and nothing else touches host memory. -/
theorem memoryCanonicalIsKept : Obligations.MemoryCanonicalIsKept := by
  intro s t h hst
  have kept : Kept MemoryCanonical :=
    kept_of_cases
      (hfsm := fun _ => memoryCanonical_fsmStep)
      (hport := fun _ _ _ _ _ h => h)
      (hdrop := fun _ h => h)
      (haccept := fun _ _ h => h)
      (hwrite := fun a v s h => hostWriteMem_keeps_wf a v s h)
      (hreset := fun _ _ _ h => h)
  exact kept.step h hst

theorem respReservedZero_fsmStep {s : State} (h : RespReservedZero s) : RespReservedZero (fsmStep s) := by
  rcases fsmStep_cases s with ⟨-, he⟩ | ⟨a, rest, -, he⟩ <;> rw [he]
  · exact h
  · by_cases hc : ∃ code changed n, a = .complete code changed n
    · obtain ⟨code, changed, n, rfl⟩ := hc
      exact respReservedZero_respWord _ _ _ _
    · have hr := doAct_resp { s with fsm := rest } fun code changed n ha => hc ⟨code, changed, n, ha⟩
      rwa [RespReservedZero, hr]

/-- Settles O59: RESP is written by a completion, which puts 0 in the reserved bits, and by reset, which holds it at 0. -/
theorem respReservedZeroIsKept : Obligations.RespReservedZeroIsKept := by
  intro s t h hst
  have kept : Kept RespReservedZero :=
    kept_of_cases
      (hfsm := fun _ => respReservedZero_fsmStep)
      (hport := fun _ _ _ _ _ h => h)
      (hdrop := fun _ h => h)
      (haccept := fun _ _ h => h)
      (hwrite := fun _ _ _ h => h)
      (hreset := fun _ _ _ _ => show respReservedZero 0#32 = true by decide)
  exact kept.step h hst

/-! ## Host operations -/

theorem racingByte_notBusy (addr : Addr) {s : State} (h : s.busy = false) : racingByte addr s = none := by
  simp [racingByte, h]

theorem hostReadMem_notBusy (addr : Addr) {s : State} (h : s.busy = false) :
    hostReadMem addr s = { s with rdata := (s.hostByte addr).setWidth 32 } := by
  simp [hostReadMem, racingByte_notBusy addr h]

theorem hostWriteMem_of_noOldBytes (addr : Addr) (v : Byte) {s : State} (h : s.oldBytes = []) :
    hostWriteMem addr v s = { s with mem := s.mem.write addr.toNat v } := by
  simp [hostWriteMem, h]

/-- Settles O43: with FSM idle a step is the host operation alone, no read races, and no old bytes are kept. -/
theorem hostOperationsOnAnIdleBlock : Obligations.HostOperationsOnAnIdleBlock := by
  intro s n rest hseq hidle
  obtain ⟨hbusy, -, -, hold⟩ := hseq
  have hb : s.busy = false := Bool.eq_false_iff.2 fun hb => hbusy.1 hb hidle
  have hread : ∀ addr, s.host = ⟨n, .readMem addr⟩ :: rest →
      step s = .next { s with host := rest, rdata := (s.hostByte addr).setWidth 32 } := by
    intro addr hhost
    rw [step_of_host hhost, serve, hostReadMem_notBusy addr (by exact hb), run_idle (by exact hidle)]
    rfl
  refine ⟨fun addr v hhost hv => ?_, fun addr hhost hv => ?_, fun addr v hhost => ?_, fun v hhost => ?_⟩
  · rw [hread addr hhost, State.hostByte, hv, Option.getD_some]
  · rw [hread addr hhost, State.hostByte, hv, Option.getD_none]
  · refine ⟨s.mem.write addr.toNat v, ?_, read_write_same _ _ _, fun a ha => read_write_other _ _ ha.symm⟩
    rw [step_of_host hhost, serve, hostWriteMem_of_noOldBytes addr v (by exact hold hidle), run_idle (by exact hidle)]
  · rw [step_of_host hhost, serve, run_idle (by exact hidle), hostWriteIe]

/-- Settles O39: a register read writes the read's data alone, and with FSM idle nothing runs on. -/
theorem registerReads : Obligations.RegisterReads := by
  intro s n rest i hidle hhost
  rw [step_of_host hhost, serve, run_idle (by exact hidle)]
  rfl

/-- Settles O40: each field of STATUS is read back from the place it is put at (R27). -/
theorem statusFields : Obligations.StatusFields := by
  intro s
  refine ⟨?_, ?_, ?_, ?_, ?_, ?_, ?_, ?_⟩
  case refine_4 => ext i hi; interval_cases i <;> simp [State.statusWord]
  case refine_5 => ext i hi; interval_cases i <;> simp [State.statusWord]
  case refine_8 => ext i hi; interval_cases i <;> simp [State.statusWord]
  all_goals simp [State.statusWord]

/-- Settles O41: only index 0 is CMD; at any other the write lands without effect. -/
theorem otherRegisterWritesAreIgnored : Obligations.OtherRegisterWritesAreIgnored := by
  intro s n rest i w hi hhost
  rw [step_of_host hhost, serve, if_neg hi]

/-- The least count of a wait is the ceiling of t × F_CLK_HZ (R265): it is not short of it. -/
theorem le_waitCycles (fClkHz us : Nat) : us * fClkHz ≤ 1000000 * waitCycles fClkHz us := by
  unfold waitCycles
  omega

/-- Settles O51: the count loaded is the ceiling of R265 and a slack, the event carries the minimum, and the cycles count
it down to 0. -/
theorem waitCountsAreNotShort : Obligations.WaitCountsAreNotShort := by
  intro us s
  refine ⟨?_, beginWait_trace us s, endWait_waitCnt _⟩
  calc us * s.build.fClkHz
      ≤ 1000000 * waitCycles s.build.fClkHz us := le_waitCycles _ _
    _ ≤ 1000000 * (doAct (.wait us) s).waitCnt := Nat.mul_le_mul_left _ (Nat.le_add_right _ _)

/-! ## What each command may write -/

/-- The words of the five patterns decode to their commands (R86, R88). -/
theorem decode_encode (i : Instr) : decode (encode i) = .ok i := by
  cases i with
  | init | poll => decide
  | hasChanged | buildReport | buildReportNull => simp [decode, encode]

/-- The commands that may come to a step: those the rules name for what it writes of the session's registers and of host
memory, any command for the other steps. -/
def MayTake (i : Instr) : Act → Prop
  | .clearSession | .identify | .enableLines | .neutralCanon | .neutralLast | .setFirst | .setInitOk => i = .init
  | .translate => i = .poll
  | .compare | .clearFirst => ∃ rid, i = .hasChanged rid
  | .memWrite _ _ => ∃ rid addr, i = .buildReport rid addr
  | .copyLast => (∃ rid addr, i = .buildReport rid addr) ∨ ∃ rid, i = .buildReportNull rid
  | .check | .complete _ _ _ | .maskIrq | .restoreIrq | .idleLevels | .drive _ | .wait _ | .count | .clearShift
  | .sampleData | .storeShift | .samplePhase _ | .invalidatePhases | .sampleBankA | .sampleBankB | .storeBanks => True

theorem mayTake_of_worksLines {i : Instr} {a : Act} (h : worksLines a = true) : MayTake i a := by
  cases a <;> trivial

theorem stepsOf_mayTake (i : Instr) (s : State) : ∀ a ∈ stepsOf i s, MayTake i a := by
  cases i with
  | init =>
    have hhead : ∀ a ∈ initHeadSteps, MayTake .init a := by simp [initHeadSteps, MayTake]
    have hend : ∀ a ∈ initOkSteps, MayTake .init a := by simp [initOkSteps, MayTake]
    intro a ha
    rcases mem_initSteps ha with ha | ha | ⟨-, ha⟩ | ⟨-, rfl⟩
    · exact hhead a ha
    · exact mayTake_of_worksLines ha
    · exact hend a ha
    · rfl
  | poll =>
    have hend : ∀ a ∈ [.maskIrq, .restoreIrq, .translate, .complete .ok false 0#8], MayTake .poll a := by simp [MayTake]
    intro a ha
    exact (mem_pollSteps ha).elim mayTake_of_worksLines (hend a)
  | hasChanged => simp [stepsOf, hasChangedSteps, MayTake]
  | buildReport => simp [stepsOf, buildReportSteps, emitReportSteps, MayTake]
  | buildReportNull => simp [stepsOf, buildReportNullSteps, emitReportSteps, MayTake]

/-- A command that takes a step it may take goes on with steps it may take. -/
theorem doAct_fsm_mayTake {i : Instr} {a : Act} {s : State} (hcur : decode s.cur = .ok i) (ha : MayTake i a)
    (hs : ∀ b ∈ s.fsm, MayTake i b) : ∀ b ∈ (doAct a s).fsm, MayTake i b := by
  by_cases hstr : straight a = true
  · rcases doAct_fsm_of_straight s hstr with he | ⟨he, -⟩ <;> rw [he]
    · exact hs
    · exact List.forall_mem_cons.2 ⟨trivial, hs⟩
  · cases a with
    | complete => simp [doAct]
    | check =>
      show ∀ b ∈ checkedSteps s, _
      intro b hb
      by_cases hc : ∃ code changed n, b = .complete code changed n
      · obtain ⟨code, changed, n, rfl⟩ := hc
        trivial
      · obtain ⟨j, hj, hm, -⟩ := mem_checkedSteps hb fun code changed n h => hc ⟨code, changed, n, h⟩
        obtain rfl : i = j := Except.ok.inj (hcur.symm.trans hj)
        exact stepsOf_mayTake i s b hm
    | identify =>
      show ∀ b ∈ (branchOnIdentity s).fsm, _
      cases i with
      | init => rcases branchOnIdentity_fsm s with he | he <;> rw [he] <;> simp [initFailSteps, initOkSteps, MayTake]
      | poll | hasChanged | buildReport | buildReportNull => cases ha
    | compare => exact List.forall_mem_cons.2 ⟨ha, by simp [MayTake]⟩
    | _ => simp [straight, endsTable] at hstr

/-- The frame of a command: what it leaves of the session's registers and of host memory. -/
structure WritesOnlyItsOwn (i : Instr) (s t : State) : Prop where
  build : t.build = s.build
  drop : t.drop = s.drop
  kind : i ≠ .init → t.kind = s.kind
  initOk : i ≠ .init → t.initOk = s.initOk
  linesEn : i ≠ .init → t.linesEn = s.linesEn
  first : i ≠ .init → (∀ r, i ≠ .hasChanged r) → t.first = s.first
  last : i ≠ .init → (∀ r a, i ≠ .buildReport r a) → (∀ r, i ≠ .buildReportNull r) → t.last = s.last
  canon : i ≠ .init → i ≠ .poll → t.canon = s.canon
  mem : (∀ r a, i ≠ .buildReport r a) → t.mem = s.mem

/-- CUR, BUSY and FSM are not in the frame: accepting a command and taking a step off its table keep it. -/
theorem writesOnlyItsOwn_sequencer (i : Instr) (s : State) (cur : Word) (busy : Bool) (fsm : List Act) :
    WritesOnlyItsOwn i s { s with cur := cur, busy := busy, fsm := fsm } := by
  constructor <;> intros <;> rfl

theorem WritesOnlyItsOwn.trans {i : Instr} {s t u : State} (h : WritesOnlyItsOwn i s t) (k : WritesOnlyItsOwn i t u) :
    WritesOnlyItsOwn i s u where
  build := k.build.trans h.build
  drop := k.drop.trans h.drop
  kind hi := (k.kind hi).trans (h.kind hi)
  initOk hi := (k.initOk hi).trans (h.initOk hi)
  linesEn hi := (k.linesEn hi).trans (h.linesEn hi)
  first hi hc := (k.first hi hc).trans (h.first hi hc)
  last hi hb hn := (k.last hi hb hn).trans (h.last hi hb hn)
  canon hi hp := (k.canon hi hp).trans (h.canon hi hp)
  mem hb := (k.mem hb).trans (h.mem hb)

/-- Every register is written by the steps the frame lemmas name, and a command takes only those it may. -/
theorem doAct_writesOnlyItsOwn {i : Instr} {a : Act} (s : State) (h : MayTake i a) :
    WritesOnlyItsOwn i s (doAct a s) where
  build := doAct_build a s
  drop := doAct_drop a s
  kind hi := doAct_kind s (by rintro rfl; exact hi h) (by rintro rfl; exact hi h)
  initOk hi := doAct_initOk s (by rintro rfl; exact hi h) (by rintro rfl; exact hi h)
  linesEn hi := doAct_linesEn s (by rintro rfl; exact hi h)
  first hi hc := doAct_first s (by rintro rfl; exact hi h) (by rintro rfl; exact hi h)
    (by rintro rfl; obtain ⟨rid, rfl⟩ := h; exact hc rid rfl)
  last hi hb hn := doAct_last s (by rintro rfl; exact hi h)
    (by rintro rfl; obtain ⟨rid, addr, rfl⟩ | ⟨rid, rfl⟩ := h; exacts [hb rid addr rfl, hn rid rfl])
  canon hi hp := doAct_canon s (by rintro rfl; exact hi h) (by rintro rfl; exact hp h)
  mem hb := doAct_mem s (by rintro _ _ rfl; obtain ⟨rid, addr, rfl⟩ := h; exact hb rid addr rfl)

/-- A command on its way from a state: it is in CUR, its remaining steps are its own, and it has kept its frame. -/
structure OnItsWay (i : Instr) (s t : State) : Prop where
  cur : decode t.cur = .ok i
  steps : ∀ a ∈ t.fsm, MayTake i a
  frame : WritesOnlyItsOwn i s t

theorem onItsWay_fsmStep {i : Instr} {s t : State} (h : OnItsWay i s t) : OnItsWay i s (fsmStep t) := by
  obtain ⟨hcur, hsteps, hframe⟩ := h
  rcases fsmStep_cases t with ⟨-, he⟩ | ⟨a, rest, ht, he⟩ <;> rw [he]
  · exact ⟨hcur, hsteps, hframe⟩
  · obtain ⟨ha, hrest⟩ := List.forall_mem_cons.1 (ht ▸ hsteps)
    refine ⟨by rwa [doAct_cur], doAct_fsm_mayTake hcur ha hrest, hframe.trans ?_⟩
    exact (writesOnlyItsOwn_sequencer i t t.cur t.busy rest).trans (doAct_writesOnlyItsOwn _ ha)

theorem exec_writesOnlyItsOwn {i : Instr} {s t : State} (hbusy : s.busy = false) (hidle : s.fsm = [])
    (hst : exec i s = .next t) : WritesOnlyItsOwn i s t := by
  rw [exec_eq_issue] at hst
  obtain rfl := Host.Outcome.next.inj hst
  rw [issue]
  rcases writeCmd_cases (encode i) s with he | ⟨hb, -⟩ | ⟨-, he⟩
  · rw [he, run_idle hidle]
    exact writesOnlyItsOwn_sequencer i s s.cur s.busy s.fsm
  · simp [hbusy] at hb
  · rw [he]
    have haccepted : OnItsWay i s { s with cur := encode i, busy := true, fsm := [.check] } :=
      ⟨decode_encode i, by simp [MayTake], writesOnlyItsOwn_sequencer i s _ _ _⟩
    exact (run_keeps (OnItsWay i s) (fun _ => onItsWay_fsmStep) _ haccepted).frame

/-- Settles O50: a command takes the steps of its own table alone, and each register is written by the steps that belong
to the commands the rules name for it. -/
theorem onlyTheNamedCommandsWrite : Obligations.OnlyTheNamedCommandsWrite := by
  intro i s t hbusy hidle hst
  have h := exec_writesOnlyItsOwn hbusy hidle hst
  exact ⟨h.build, h.drop, fun hi => ⟨h.kind hi, h.initOk hi, h.linesEn hi⟩, h.first, h.last, h.canon,
    fun hb a => by rw [h.mem hb]⟩

end Sys2Proof.Machine
end

section
/-! SUPPORT. Host memory and the commands (20_memory.md): the step that lets a command word or a narrow access land, what
BUILD_REPORT stores, what a host read of its buffer returns while it runs, and that no command reads host memory. -/

namespace Sys2Proof.Machine

/-! ## A register access lands -/

/-- Settles O6: a word that decodes is the word of the command it decodes to, and index 0 is CMD. -/
theorem stepRunsTheDecodedCommand : Obligations.StepRunsTheDecodedCommand := by
  intro s n w rest i hhost hw
  rw [step_of_host hhost, serve, if_pos rfl, command, hw]

/-- Settles O42: a narrow access is the one host operation that is refused. -/
theorem narrowAccessIsRefused : Obligations.NarrowAccessIsRefused := by
  intro s n rest hhost
  rw [step_of_host hhost, serve]

/-! ## The steps a command is given -/

/-- A command that may run is given its own step table by the checks (R102). -/
theorem checkedSteps_of_decode {i : Instr} {s : State} (hcur : decode s.cur = .ok i)
    (hrun : needsInit i = true → s.initOk = true) : checkedSteps s = stepsOf i s := by
  have hpass : ¬ (needsInit i && !s.initOk) = true := by simpa using hrun
  simp only [checkedSteps, hcur, if_neg hpass]

/-- An accepted command that may run has its own step table before it: the table is made from the parameters and KIND. -/
theorem accepted_encode_fsm {i : Instr} {s : State} (hrun : needsInit i = true → s.initOk = true) :
    (accepted (encode i) s).fsm = stepsOf i s := by
  have htable : checkedSteps { s with cur := encode i, busy := true, fsm := [] } = stepsOf i _ :=
    checkedSteps_of_decode (decode_encode i) hrun
  cases i <;> exact htable

/-! ## The addresses of the buffer (R63) -/

theorem reportAddr_toNat (addr : Addr) (i : Fin 3) : (reportAddr addr i).toNat = (addr.toNat + i.val) % 65536 := by
  simp [reportAddr]

theorem reportAddr_inj {addr : Addr} {i j : Fin 3} : reportAddr addr i = reportAddr addr j ↔ i = j := by
  refine ⟨fun h => ?_, congrArg _⟩
  have hnat := congrArg BitVec.toNat h
  rw [reportAddr_toNat, reportAddr_toNat] at hnat
  omega

theorem reportAddr_toNat_injective (addr : Addr) : Function.Injective fun i => (reportAddr addr i).toNat :=
  fun _ _ he => reportAddr_inj.1 (BitVec.eq_of_toNat_eq he)

/-! ## BUILD_REPORT left alone -/

/-- What BUILD_REPORT's table does: the three writes in ascending order, LAST, and the completion (R224). -/
theorem buildReport_table (addr : Addr) (s : State) :
    complete .ok false 3#8 (effects [.memWrite addr 0, .memWrite addr 1, .memWrite addr 2, .copyLast] s) = { s with
      resp := respWord (fieldOp s.cur) 3#8 false .ok, busy := false, last := s.canon, fsm := [], oldBytes := []
      mem := ((s.mem.write (reportAddr addr 0).toNat s.canon.x).write (reportAddr addr 1).toNat s.canon.y).write
        (reportAddr addr 2).toNat s.canon.btn
      trace := s.trace ++ [.memWrite (reportAddr addr 0) s.canon.x, .memWrite (reportAddr addr 1) s.canon.y,
        .memWrite (reportAddr addr 2) s.canon.btn] } := by
  simp only [complete, effects, effect, doAct, doMemWrite, emit, copyLast, reportByte, List.append_assoc,
    List.cons_append, List.nil_append]

theorem respWord_buildReport (rid : Byte) (addr : Addr) :
    respWord (fieldOp (encode (.buildReport rid addr))) 3#8 false .ok = 0x00030300#32 := by
  rw [encode, fieldOp_packWord]
  decide

/-- Settles O33: the checks put the table of R224 in place, it is straight up to its completion, and its effects are the
three writes and LAST. -/
theorem buildReportNextState : Obligations.BuildReportNextState := by
  intro rid addr s hready hinit
  have ⟨_, hbusy, _⟩ := hready
  have htable : (accepted (encode (.buildReport rid addr)) s).fsm =
      [.memWrite addr 0, .memWrite addr 1, .memWrite addr 2, .copyLast] ++ [.complete .ok false 3#8] :=
    accepted_encode_fsm fun _ => hinit
  rw [exec_eq_issue, issue_table hready htable (by simp [straight, endsTable]) (by simp [stepsCost, stepCost]),
    buildReport_table]
  simp only [accepted, respWord_buildReport, hbusy]

/-- Three writes at different addresses: each byte reads back, and every other address as before. -/
theorem read_write_three (m : Memory) {f : Fin 3 → Nat} (hf : Function.Injective f) (r : Report) :
    (∀ i, (((m.write (f 0) r.x).write (f 1) r.y).write (f 2) r.btn).read (f i) = some (reportByte r i)) ∧
    ∀ a, (∀ i, a ≠ f i) → (((m.write (f 0) r.x).write (f 1) r.y).write (f 2) r.btn).read a = m.read a := by
  refine ⟨fun i => ?_, fun a ha => ?_⟩
  · match i with
    | 0 =>
      rw [read_write_other _ _ (hf.ne (by decide)), read_write_other _ _ (hf.ne (by decide)), read_write_same]
      rfl
    | 1 => rw [read_write_other _ _ (hf.ne (by decide)), read_write_same]; rfl
    | 2 => rw [read_write_same]; rfl
  · rw [read_write_other _ _ (ha 2).symm, read_write_other _ _ (ha 1).symm, read_write_other _ _ (ha 0).symm]

/-- Settles O34: the whole next state has the three writes, and their addresses differ modulo 2^16. -/
theorem buildReportStoresTheReport : Obligations.BuildReportStoresTheReport := by
  intro rid addr s hready hinit
  have ⟨_, hbusy, _⟩ := hready
  obtain ⟨hread, hframe⟩ := read_write_three s.mem (reportAddr_toNat_injective addr) s.canon
  exact ⟨_, buildReportNextState rid addr s hready hinit, hbusy, fun i => ⟨reportAddr_toNat addr i, hread i⟩, hframe⟩

/-! ## A host read of the buffer while BUILD_REPORT runs (R70) -/

/-- A value that buffer byte `i` of a BUILD_REPORT started from `s` may read as: the byte held or the report byte. -/
def OldOrNew (s : State) (addr : Addr) (i : Fin 3) (v : Byte) : Prop :=
  v = s.hostByte (reportAddr addr i) ∨ v = reportByte s.canon i

/-- A BUILD_REPORT on its way from `s`: what is left of its table, and only old or new bytes in its buffer and among the
bytes kept for racing reads. -/
structure Building (rid : Byte) (addr : Addr) (s t : State) : Prop where
  cur : decode t.cur = .ok (.buildReport rid addr)
  initOk : t.initOk = true
  canon : t.canon = s.canon
  steps : t.fsm = [.check] ∨ t.fsm <:+ buildReportSteps addr
  held : ∀ i, OldOrNew s addr i (t.hostByte (reportAddr addr i))
  kept : ∀ i v, cellsRead t.oldBytes (reportAddr addr i).toNat = some v → OldOrNew s addr i v

theorem hostByte_doMemWrite (addr a : Addr) (i : Fin 3) (s : State) :
    (doMemWrite addr i s).hostByte a = if reportAddr addr i = a then reportByte s.canon i else s.hostByte a := by
  unfold State.hostByte
  rw [doMemWrite_mem]
  split
  · next h => rw [h, read_write_same, Option.getD_some]
  · next h => rw [read_write_other _ _ fun he => h (BitVec.eq_of_toNat_eq he)]

theorem building_memWrite {rid : Byte} {addr : Addr} {s t : State} (j : Fin 3) (h : Building rid addr s t)
    (hsteps : t.fsm <:+ buildReportSteps addr) : Building rid addr s (doMemWrite addr j t) where
  cur := h.cur
  initOk := h.initOk
  canon := h.canon
  steps := .inr hsteps
  held i := by
    simp only [hostByte_doMemWrite, reportAddr_inj]
    split
    · next hji => subst hji; exact .inr (by rw [h.canon])
    · exact h.held i
  kept i v hv := by
    rw [doMemWrite_oldBytes, cellsRead] at hv
    split at hv
    · next hji =>
      obtain rfl := reportAddr_toNat_injective addr hji
      exact Option.some.inj hv ▸ h.held j
    · exact h.kept i v hv

/-- BUILD_REPORT's own steps (R224). -/
theorem mem_buildReportSteps {addr : Addr} {a : Act} (h : a ∈ buildReportSteps addr) :
    (∃ i, a = .memWrite addr i) ∨ a = .copyLast ∨ a = .complete .ok false 3#8 := by
  simp only [buildReportSteps, emitReportSteps, List.cons_append, List.nil_append, List.mem_cons, List.not_mem_nil] at h
  rcases h with rfl | rfl | rfl | rfl | rfl | h
  · exact .inl ⟨0, rfl⟩
  · exact .inl ⟨1, rfl⟩
  · exact .inl ⟨2, rfl⟩
  · exact .inr (.inl rfl)
  · exact .inr (.inr rfl)
  · exact h.elim

theorem building_fsmStep {rid : Byte} {addr : Addr} {s t : State} (h : Building rid addr s t) :
    Building rid addr s (fsmStep t) := by
  rcases fsmStep_cases t with ⟨-, he⟩ | ⟨a, rest, ht, he⟩ <;> rw [he]
  · exact h
  · have ⟨hcur, hinit, hcanon, hsteps, hheld, hkept⟩ := h
    rw [ht] at hsteps
    rcases hsteps with hcheck | hsuffix
    · obtain ⟨rfl, rfl⟩ := List.cons.inj hcheck
      have htable : checkedSteps { t with fsm := [] } = buildReportSteps addr :=
        checkedSteps_of_decode (i := .buildReport rid addr) hcur fun _ => hinit
      exact ⟨hcur, hinit, hcanon, .inr (htable ▸ List.suffix_refl _), hheld, hkept⟩
    · have hrest : rest <:+ buildReportSteps addr := (List.suffix_cons a rest).trans hsuffix
      rcases mem_buildReportSteps (hsuffix.subset List.mem_cons_self) with ⟨j, rfl⟩ | rfl | rfl
      · exact building_memWrite j (t := { t with fsm := rest }) ⟨hcur, hinit, hcanon, .inr hrest, hheld, hkept⟩ hrest
      · exact ⟨hcur, hinit, hcanon, .inr hrest, hheld, hkept⟩
      · exact ⟨hcur, hinit, hcanon, .inr (List.nil_suffix), hheld, fun _ _ hv => nomatch hv⟩

/-- A buffer byte of a running BUILD_REPORT may read as the byte kept, or else held, and as the report byte (R70). -/
theorem racingByte_buffer {rid : Byte} {addr : Addr} {t : State} (i : Fin 3) (hbusy : t.busy = true)
    (hinit : t.initOk = true) (hcur : decode t.cur = .ok (.buildReport rid addr)) :
    racingByte (reportAddr addr i) t =
      some ((cellsRead t.oldBytes (reportAddr addr i).toNat).getD (t.hostByte (reportAddr addr i)),
        reportByte t.canon i) := by
  simp only [racingByte, hbusy, hinit, hcur, Bool.and_self, if_true, reportAddr_inj]
  match i with
  | 0 => rfl
  | 1 => rfl
  | 2 => rfl

theorem Building.oldOrNew_read {rid : Byte} {addr : Addr} {s t : State} (h : Building rid addr s t)
    (hbusy : t.busy = true) (i : Fin 3) :
    ∃ v, OldOrNew s addr i v ∧ (hostReadMem (reportAddr addr i) t).rdata = v.setWidth 32 := by
  rw [hostReadMem, racingByte_buffer i hbusy h.initOk h.cur]
  refine ⟨_, ?_, rfl⟩
  split
  · exact .inr (by rw [h.canon])
  · cases hv : cellsRead t.oldBytes (reportAddr addr i).toNat with
    | none => exact h.held i
    | some v => exact h.kept i v hv

/-- Settles O44: every sequencer step of the command leaves old or new bytes in its buffer and among the bytes kept, and a
racing read returns one of these or the report byte. -/
theorem bufferReadWhileBusyIsOldOrNew : Obligations.BufferReadWhileBusyIsOldOrNew := by
  rintro rid addr s t i ⟨hseq, -, -, hold⟩ hrst hbusy hinit hst htbusy
  have hidle : s.fsm = [] := by
    by_contra hne
    simp [hseq.2 hne] at hbusy
  rw [exec_eq_issue] at hst
  obtain rfl := Host.Outcome.next.inj hst
  have haccepted : Building rid addr s (writeCmd (encode (.buildReport rid addr)) s) := by
    simp only [writeCmd, hrst, hbusy, Bool.false_eq_true, if_false]
    exact ⟨decode_encode _, hinit, rfl, .inl rfl, fun _ => .inl rfl, fun _ _ hv => by simp [hold hidle, cellsRead] at hv⟩
  have hbuilding := run_keeps (Building rid addr s) (fun _ => building_fsmStep) _ haccepted
  obtain ⟨v, hv, hread⟩ := hbuilding.oldOrNew_read htbusy i
  rw [issue, hread]
  exact hv.imp (congrArg _) (congrArg _)

/-! ## No command reads host memory (R60, R74) -/

/-- Two states that agree but for host memory and the bytes kept for racing reads. -/
def SameButMemory (s t : State) : Prop := ∃ m old, t = { s with mem := m, oldBytes := old }

theorem doAct_sameButMemory (a : Act) {s t : State} (h : SameButMemory s t) :
    SameButMemory (doAct a s) (doAct a t) := by
  obtain ⟨m, old, rfl⟩ := h
  cases a with
  | identify =>
    simp only [doAct, branchOnIdentity]
    split <;> exact ⟨m, old, rfl⟩
  | _ => exact ⟨_, _, rfl⟩

theorem fsmStep_sameButMemory {s t : State} (h : SameButMemory s t) : SameButMemory (fsmStep s) (fsmStep t) := by
  have ⟨m, old, ht⟩ := h
  have hfsm : t.fsm = s.fsm := by rw [ht]
  rcases fsmStep_cases s with ⟨hs, he⟩ | ⟨a, rest, hs, he⟩ <;> rw [he]
  · rwa [fsmStep_idle t (hfsm.trans hs)]
  · rw [fsmStep_cons t (hfsm.trans hs)]
    exact doAct_sameButMemory a ⟨m, old, by rw [ht]⟩

theorem runFor_sameButMemory (n : Nat) {s t : State} (h : SameButMemory s t) :
    SameButMemory (runFor n s) (runFor n t) := by
  induction n generalizing s t with
  | zero => exact h
  | succ n ih =>
    rw [runFor_succ, runFor_succ]
    exact ih (fsmStep_sameButMemory h)

theorem run_sameButMemory {s t : State} (h : SameButMemory s t) : SameButMemory (run s) (run t) := by
  have hbudget : t.budget = s.budget := by
    obtain ⟨m, old, rfl⟩ := h
    rfl
  rw [run, run, hbudget]
  exact runFor_sameButMemory _ h

theorem writeCmd_sameButMemory (w : Word) {s t : State} (h : SameButMemory s t) :
    SameButMemory (writeCmd w s) (writeCmd w t) := by
  obtain ⟨m, old, rfl⟩ := h
  unfold writeCmd
  dsimp only
  split
  · exact ⟨m, old, rfl⟩
  · split <;> exact ⟨m, old, rfl⟩

/-- Settles O45: accepting a command and each of its steps keep two states alike but for host memory and the bytes kept. -/
theorem commandsDoNotReadHostMemory : Obligations.CommandsDoNotReadHostMemory := by
  intro i s m
  have hstart : SameButMemory s { s with mem := m } := ⟨m, s.oldBytes, rfl⟩
  obtain ⟨m', old, he⟩ := run_sameButMemory (writeCmd_sameButMemory (encode i) hstart)
  exact ⟨_, _, exec_eq_issue i s, exec_eq_issue i _, by rw [issue, issue, he]⟩

end Sys2Proof.Machine
end

section
/-! SUPPORT. Encoding (30_encoding.md): the decoder and the encoder are inverse to each other, the five patterns are the
legal words, and the assembler's words. -/

namespace Sys2Proof

/-! ## Words and their fields -/

@[simp] theorem lowByte_packWord (a : Addr) (r l : Byte) : (packWord a r l).extractLsb' 0 8 = l := by
  ext i hi
  interval_cases i <;> simp [packWord]

@[simp] theorem lowBits_packWord (a : Addr) (r l : Byte) : (packWord a r l).extractLsb' 0 3 = l.extractLsb' 0 3 := by
  ext i hi
  interval_cases i <;> simp [packWord]

/-- A word is given by its ADDR, its RID and its low byte. -/
theorem packWord_eq_iff {a : Addr} {r l : Byte} {w : Word} :
    packWord a r l = w ↔ fieldAddr w = a ∧ fieldRid w = r ∧ w.extractLsb' 0 8 = l := by
  constructor
  · rintro rfl
    simp
  · rintro ⟨rfl, rfl, rfl⟩
    exact packWord_fields w

/-- A word written with its parts in R89's order, from the low byte up. -/
theorem packWord_eq_or (a : Addr) (r l : Byte) :
    packWord a r l = l.setWidth 32 ||| (r.setWidth 32 <<< 8) ||| (a.setWidth 32 <<< 16) := by
  rw [packWord, BitVec.or_comm, BitVec.or_comm (a.setWidth 32 <<< 16), BitVec.or_assoc]

/-- A word without an ADDR, in R89's order. -/
theorem packWord_noAddr_eq_or (r l : Byte) : packWord 0#16 r l = l.setWidth 32 ||| (r.setWidth 32 <<< 8) := by
  simp [packWord_eq_or]

/-! ## The decoder and the encoder -/

theorem fieldOp_eq_three {w : Word} (h0 : fieldOp w ≠ 0#2) (h1 : fieldOp w ≠ 1#2) (h2 : fieldOp w ≠ 2#2) :
    fieldOp w = 3#2 := by
  bv_omega

/-- Each test of the decoding procedure (R88) that lets a word through fixes the fields the command's pattern fixes. -/
theorem encode_of_decode {w : Word} {i : Instr} (h : decode w = .ok i) : encode i = w := by
  unfold decode at h
  split_ifs at h with hop0 hw hop1 hw hop2 hhas hbuild hnull <;> obtain rfl := Except.ok.inj h
  · exact hw.symm
  · exact hw.symm
  · obtain ⟨hbuf, hrsv, haddr⟩ := hhas
    exact packWord_eq_iff.2 ⟨haddr, rfl, by rw [lowByte_fields, hop2, hbuf, hrsv]; rfl⟩
  · obtain ⟨hrsv, hbuf⟩ := hbuild
    exact packWord_eq_iff.2 ⟨rfl, rfl, by rw [lowByte_fields, fieldOp_eq_three hop0 hop1 hop2, hbuf, hrsv]; rfl⟩
  · obtain ⟨hrsv, haddr⟩ := hnull
    have hbuf : fieldBuf w = false := by simpa [hrsv] using hbuild
    exact packWord_eq_iff.2 ⟨haddr, rfl, by rw [lowByte_fields, fieldOp_eq_three hop0 hop1 hop2, hbuf, hrsv]; rfl⟩

/-- The words a command is decoded from: its own word alone. -/
theorem decode_eq_ok_iff {w : Word} {i : Instr} : decode w = .ok i ↔ encode i = w :=
  ⟨encode_of_decode, fun h => h ▸ Machine.decode_encode i⟩

/-- Settles O1: each command's fields are read back from the word they are packed into. -/
theorem decodeOfEncodeIsTheCommand : Obligations.DecodeOfEncodeIsTheCommand := Machine.decode_encode

/-- Settles O2: the decoder answers a command on the command's own word alone. -/
theorem decodedWordIsTheCommandsWord : Obligations.DecodedWordIsTheCommandsWord := fun _ _ => encode_of_decode

/-! ## The five patterns (R86) -/

/-- The parts of a word under a mask. -/
theorem and_eq_packWord_iff {w m : Word} {a : Addr} {r l : Byte} :
    w &&& m = packWord a r l ↔
      fieldAddr w &&& fieldAddr m = a ∧ fieldRid w &&& fieldRid m = r ∧
        w.extractLsb' 0 8 &&& m.extractLsb' 0 8 = l := by
  rw [eq_comm, packWord_eq_iff]
  simp only [fieldAddr, fieldRid, BitVec.extractLsb'_and]

/-- A pattern whose free field is RID: ADDR is 0 and the low byte is fixed. -/
theorem matches_freeRid_iff (w : Word) (l : Byte) :
    w &&& 0xFFFF00FF#32 = packWord 0#16 0#8 l ↔ packWord 0#16 (fieldRid w) l = w := by
  have haddr : fieldAddr 0xFFFF00FF#32 = BitVec.allOnes 16 := rfl
  have hrid : fieldRid 0xFFFF00FF#32 = 0#8 := rfl
  have hlow : (0xFFFF00FF#32).extractLsb' 0 8 = BitVec.allOnes 8 := rfl
  rw [and_eq_packWord_iff, packWord_eq_iff, haddr, hrid, hlow]
  simp only [BitVec.and_allOnes, BitVec.and_zero, true_and]

/-- A pattern whose free fields are RID and ADDR: the low byte is fixed. -/
theorem matches_freeRidAddr_iff (w : Word) (l : Byte) :
    w &&& 0x000000FF#32 = packWord 0#16 0#8 l ↔ packWord (fieldAddr w) (fieldRid w) l = w := by
  have haddr : fieldAddr 0x000000FF#32 = 0#16 := rfl
  have hrid : fieldRid 0x000000FF#32 = 0#8 := rfl
  have hlow : (0x000000FF#32).extractLsb' 0 8 = BitVec.allOnes 8 := rfl
  rw [and_eq_packWord_iff, packWord_eq_iff, haddr, hrid, hlow]
  simp only [BitVec.and_allOnes, BitVec.and_zero, true_and]

/-- A pattern without a free field. -/
theorem matches_noFree_iff (w m : Word) : w &&& 0xFFFFFFFF#32 = m ↔ m = w := by
  rw [show 0xFFFFFFFF#32 = BitVec.allOnes 32 from rfl, BitVec.and_allOnes, eq_comm]

/-- A word that decodes has the fixed bits of its command's row. -/
theorem matchesRow_of_decode {w : Word} {i : Instr} (h : decode w = .ok i) :
    w &&& Laws.TableRow.rowMask i = Laws.TableRow.rowMatch i := by
  obtain rfl := encode_of_decode h
  cases i with
  | init => exact Laws.TableRow.init
  | poll => exact Laws.TableRow.poll
  | hasChanged rid => exact Laws.TableRow.hasChanged rid
  | buildReport rid addr => exact Laws.TableRow.buildReport rid addr
  | buildReportNull rid => exact Laws.TableRow.buildReportNull rid

theorem illegal_iff (w : Word) : (∃ e, decode w = .error e) ↔ ∀ i, decode w ≠ .ok i := by
  cases decode w <;> simp

/-- No command's word has 100, 101 or 110 in OP and BUF. -/
theorem lowBits_encode_ne (i : Instr) :
    (encode i).extractLsb' 0 3 ≠ 0b100#3 ∧ (encode i).extractLsb' 0 3 ≠ 0b101#3 ∧
      (encode i).extractLsb' 0 3 ≠ 0b110#3 := by
  cases i with
  | init | poll => decide
  | hasChanged | buildReport | buildReportNull => rw [encode, lowBits_packWord]; decide

/-- Settles O3: a row's pattern holds of a word exactly when the word is its command's with the operands read from the
free fields; a legal word has its own command's pattern. -/
theorem patternsDecodeToTheirCommands : Obligations.PatternsDecodeToTheirCommands := by
  intro w
  have hinit : w &&& 0xFFFFFFFF#32 = 0x00000000#32 ↔ decode w = .ok .init := by
    rw [decode_eq_ok_iff]; exact matches_noFree_iff w _
  have hpoll : w &&& 0xFFFFFFFF#32 = 0x00000001#32 ↔ decode w = .ok .poll := by
    rw [decode_eq_ok_iff]; exact matches_noFree_iff w _
  have hhas : w &&& 0xFFFF00FF#32 = 0x00000002#32 ↔ decode w = .ok (.hasChanged (fieldRid w)) := by
    rw [decode_eq_ok_iff]; exact matches_freeRid_iff w 0x02#8
  have hbuild : w &&& 0x000000FF#32 = 0x00000007#32 ↔ decode w = .ok (.buildReport (fieldRid w) (fieldAddr w)) := by
    rw [decode_eq_ok_iff]; exact matches_freeRidAddr_iff w 0x07#8
  have hnull : w &&& 0xFFFF00FF#32 = 0x00000003#32 ↔ decode w = .ok (.buildReportNull (fieldRid w)) := by
    rw [decode_eq_ok_iff]; exact matches_freeRid_iff w 0x03#8
  refine ⟨hinit, hpoll, hhas, hbuild, hnull, ?_, fun hlow => ?_⟩
  · rw [illegal_iff, ← not_exists, not_iff_not]
    constructor
    · rintro ⟨i, hi⟩
      have hrow := matchesRow_of_decode hi
      cases i with
      | init => exact .inl hrow
      | poll => exact .inr (.inl hrow)
      | hasChanged => exact .inr (.inr (.inl hrow))
      | buildReport => exact .inr (.inr (.inr (.inl hrow)))
      | buildReportNull => exact .inr (.inr (.inr (.inr hrow)))
    · rintro (h | h | h | h | h)
      · exact ⟨_, hinit.1 h⟩
      · exact ⟨_, hpoll.1 h⟩
      · exact ⟨_, hhas.1 h⟩
      · exact ⟨_, hbuild.1 h⟩
      · exact ⟨_, hnull.1 h⟩
  · refine (illegal_iff w).2 fun i hi => ?_
    obtain rfl := encode_of_decode hi
    obtain ⟨h4, h5, h6⟩ := lowBits_encode_ne i
    rcases hlow with h | h | h
    · exact h4 h
    · exact h5 h
    · exact h6 h

/-- Settles O4: each word is the word of the command it is to decode to. -/
theorem specWordsDecode : Obligations.SpecWordsDecode := by
  refine ⟨?_, ?_, ?_, ?_, ?_⟩ <;> exact decode_eq_ok_iff.2 (by decide)

/-! ## The assembler (R89, R90) -/

theorem assemble_malformed {c : AsmCommand} (h : c.wellFormed = false) : assemble c = none := by
  simp [assemble, h]

theorem assemble_haschg (rid : Byte) : assemble (.haschg rid.toNat) = some (encode (.hasChanged rid)) := by
  simp [assemble, AsmCommand.wellFormed]

theorem assemble_build (rid : Byte) (addr : Addr) :
    assemble (.build rid.toNat addr.toNat) = some (encode (.buildReport rid addr)) := by
  simp [assemble, AsmCommand.wellFormed]

theorem assemble_buildNull (rid : Byte) : assemble (.buildNull rid.toNat) = some (encode (.buildReportNull rid)) := by
  simp [assemble, AsmCommand.wellFormed]

theorem assemble_word (w : Word) : assemble (.word w.toNat) = some w := by
  simp [assemble, AsmCommand.wellFormed]

/-- Settles O5: operands in range are the operands of the command's word, a pseudo-instruction is its expansion by
definition, and an operand out of range makes the line malformed. -/
theorem assemblerWords : Obligations.AssemblerWords := by
  refine ⟨rfl, rfl, fun rid => ?_, fun rid addr => ?_, fun rid => ?_, assemble_word, rfl, fun _ => rfl, rfl,
    fun rid hrid => ?_, fun addr haddr rid => assemble_malformed ?_⟩
  · rw [assemble_haschg, encode, packWord_noAddr_eq_or]; rfl
  · rw [assemble_build, encode, packWord_eq_or]; rfl
  · rw [assemble_buildNull, encode, packWord_noAddr_eq_or]; rfl
  · have hout : ridInRange rid = false := ridInRange_of_ge hrid
    exact ⟨assemble_malformed hout, assemble_malformed hout,
      fun addr => assemble_malformed (by simp [AsmCommand.wellFormed, hout])⟩
  · simp [AsmCommand.wellFormed, addrInRange_of_ge haddr]

end Sys2Proof
end

section
/-! SUPPORT. The host commands (40_host_commands.md): what a word written to CMD comes to, and the whole next states of
INIT and POLL left alone by the host. -/

namespace Sys2Proof.Machine

/-! ## A word written to CMD (R100, R101) -/

/-- A word written to CMD is issued as it is, legal or not: a legal one is its command's own word. -/
theorem command_eq_issue (w : Word) (s : State) : command w s = .next (issue w s) := by
  unfold command
  split
  · rename_i i hw
    rw [exec_eq_issue, encode_of_decode hw]
  · rfl

/-- The step that lets a write to CMD land issues the word. -/
theorem step_of_cmdWrite {s : State} {n : Nat} {w : Word} {rest : List Arrival}
    (h : s.host = ⟨n, .writeReg 0#2 w⟩ :: rest) : step s = .next (issue w { s with host := rest }) := by
  rw [step_of_host h, serve, if_pos rfl, command_eq_issue]

theorem writeCmd_accept (w : Word) {s : State} (hrst : s.rst = false) (hbusy : s.busy = false) :
    writeCmd w s = { s with cur := w, busy := true, fsm := [.check] } := by
  simp [writeCmd, hrst, hbusy]

theorem writeCmd_drop (w : Word) {s : State} (hrst : s.rst = false) (hbusy : s.busy = true) :
    writeCmd w s = { s with drop := true } := by
  simp [writeCmd, hrst, hbusy]

/-- Settles O8: the step issues the word, and the operation that lands at once leaves the sequencer no step to take. -/
theorem acceptanceChangesCurBusyAndFsm : Obligations.AcceptanceChangesCurBusyAndFsm := by
  intro s n w op rest hhost hrst hbusy
  rw [step_of_cmdWrite hhost, issue, writeCmd_accept w (by exact hrst) (by exact hbusy)]
  rfl

/-- No sequencer step reads DROP, and none writes it. -/
theorem doAct_withDrop (a : Act) (s : State) (d : Bool) :
    doAct a { s with drop := d } = { doAct a s with drop := d } := by
  cases a with
  | identify =>
    simp only [doAct, branchOnIdentity]
    split <;> rfl
  | _ => rfl

theorem fsmStep_withDrop (s : State) (d : Bool) : fsmStep { s with drop := d } = { fsmStep s with drop := d } := by
  rcases fsmStep_cases s with ⟨hs, he⟩ | ⟨a, rest, hs, he⟩ <;> rw [he]
  · exact fsmStep_idle _ hs
  · rw [fsmStep_cons { s with drop := d } hs]
    exact doAct_withDrop a { s with fsm := rest } d

theorem runFor_withDrop (n : Nat) (s : State) (d : Bool) :
    runFor n { s with drop := d } = { runFor n s with drop := d } := by
  induction n generalizing s with
  | zero => rfl
  | succ n ih => rw [runFor_succ, runFor_succ, fsmStep_withDrop, ih]

/-- Settles O9: the step issues the word, which only sets DROP, and the running command runs on as it would with
any DROP. -/
theorem busyCommandIsDropped : Obligations.BusyCommandIsDropped := by
  intro s n w rest hhost hrst hbusy
  rw [step_of_cmdWrite hhost, issue, writeCmd_drop w (by exact hrst) (by exact hbusy)]
  exact congrArg _ (runFor_withDrop _ { s with host := rest } true)

/-- Settles O13: RESP's fields are read back from the places they are put at. -/
theorem completionWritesResp : Obligations.CompletionWritesResp :=
  fun _ _ _ _ => ⟨respCode_respWord _ _ _ _, respChanged_respWord _ _ _ _, respCount_respWord _ _ _ _,
    respOp_respWord _ _ _ _, rfl, rfl⟩

/-! ## The straight head of a table -/

theorem stepsCost_append (l r : List Act) : stepsCost (l ++ r) = stepsCost l + stepsCost r := by
  induction l with
  | nil => simp [stepsCost]
  | cons a l ih => simp only [List.cons_append, stepsCost, ih, Nat.add_assoc]

theorem straight_of_worksLines {a : Act} (h : worksLines a = true) : straight a = true := by
  cases a with
  | check | complete | identify | compare => simp [worksLines] at h
  | _ => rfl

/-- An accepted command takes the straight head of its table, and comes to the rest with what is left of its bound. -/
theorem issue_head {w : Word} {s : State} {l rest : List Act} (hready : s.ready) (hs : (accepted w s).fsm = l ++ rest)
    (hl : ∀ a ∈ l, straight a = true) {k : Nat} (hc : stepsCost l + k ≤ 127) :
    ∃ n, k ≤ n ∧ issue w s = runFor n { effects l (accepted w s) with fsm := rest } := by
  obtain ⟨m, hm, he⟩ := issue_ready w s hready
  obtain ⟨n, rfl⟩ := Nat.exists_eq_add_of_le (show stepsCost l ≤ m by omega)
  exact ⟨n, by omega, by rw [he, runFor_head hs hl]⟩

/-! ## INIT (R104, R105) -/

/-- The successful end of INIT (R104): the reports neutral, FIRST and INIT_OK set, the window closed, RESP written. -/
theorem runFor_initOkSteps {n : Nat} (hn : 6 ≤ n) (s : State) : runFor n { s with fsm := initOkSteps } = { s with
    canon := neutralReport, last := neutralReport, first := true, initOk := true
    hostIe := s.savedIe, trace := s.trace ++ [.hostIe s.savedIe]
    resp := respWord (fieldOp s.cur) 0#8 false .ok, busy := false, fsm := [], oldBytes := [] } := by
  have htable : ({ s with fsm := initOkSteps } : State).fsm =
    [.neutralCanon, .neutralLast, .setFirst, .setInitOk, .restoreIrq] ++ [.complete .ok false 0#8] := rfl
  rw [runFor_table htable (by simp [straight, endsTable]) hn]
  simp only [effects, effect, doAct, neutralCanon, neutralLast, setFirst, setInitOk, restoreIrq, emit, complete]

/-- INIT's end after a multi-tap (R104, R162): the window closed and RESP written. -/
theorem runFor_initFailSteps {n : Nat} (hn : 2 ≤ n) (s : State) : runFor n { s with fsm := initFailSteps } = { s with
    hostIe := s.savedIe, trace := s.trace ++ [.hostIe s.savedIe]
    resp := respWord (fieldOp s.cur) 0#8 false .errMultitap, busy := false, fsm := [], oldBytes := [] } := by
  have htable : ({ s with fsm := initFailSteps } : State).fsm =
    [.restoreIrq] ++ [.complete .errMultitap false 0#8] := rfl
  rw [runFor_table htable (by simp [straight, endsTable]) hn]
  simp only [effects, effect, doAct, restoreIrq, emit, complete]

/-- INIT takes its head and its family's body, and comes to the rest of its table with steps to spare. -/
theorem exec_init_body {s : State} {body rest : List Act} (hready : s.ready)
    (htable : initSteps s.build = initHeadSteps ++ body ++ rest) (hbody : ∀ a ∈ body, worksLines a = true)
    (hcost : stepsCost body ≤ 100) :
    ∃ n, 20 ≤ n ∧ exec .init s = .next (runFor n
      { effects body (effects initHeadSteps (accepted (encode .init) s)) with fsm := rest }) := by
  have hfsm : (accepted (encode .init) s).fsm = initHeadSteps ++ body ++ rest :=
    (accepted_encode_fsm (by simp [needsInit])).trans htable
  have hstraight : ∀ a ∈ initHeadSteps ++ body, straight a = true :=
    List.forall_mem_append.2
      ⟨by simp [initHeadSteps, straight, endsTable], fun a ha => straight_of_worksLines (hbody a ha)⟩
  have hhead : stepsCost initHeadSteps = 4 := rfl
  obtain ⟨n, hn, he⟩ := issue_head hready hfsm hstraight (k := 20) (by rw [stepsCost_append]; omega)
  exact ⟨n, hn, by rw [exec_eq_issue, he, effects_append]⟩

theorem respWord_init (code : Code) :
    respWord (fieldOp (encode .init)) 0#8 false code = (codeBits code).setWidth 32 := by
  cases code <;> decide

/-- INIT of a family whose body is one settle wait (R132, R182), left alone: its whole next state. -/
theorem exec_init_wait {s : State} {us : Nat} (hready : s.ready)
    (htable : initSteps s.build = initHeadSteps ++ [.wait us] ++ initOkSteps) :
    exec .init s = .next { s with
      cur := 0x00000000#32, resp := 0x00000000#32, fsm := []
      initOk := true, first := true, kind := .none, linesEn := true
      canon := ⟨128#8, 128#8, 0#8⟩, last := ⟨128#8, 128#8, 0#8⟩
      lines := idleLines s.build.family s.lines
      savedIe := s.hostIe, waitCnt := 0, waits := s.waits + 1, oldBytes := []
      trace := s.trace ++ [.hostIe false, .idleDrive, .wait us, .hostIe s.hostIe] } := by
  have ⟨_, hbusy, _⟩ := hready
  obtain ⟨n, hn, he⟩ := exec_init_body hready htable (by simp [worksLines]) (by simp [stepsCost, stepCost])
  rw [he, runFor_initOkSteps (by omega)]
  simp only [initHeadSteps_effects, wait_effects, accepted, respWord_init, hbusy, List.append_assoc,
    List.cons_append, List.nil_append]
  rfl

/-- Settles O14: the body of a NES block's INIT is one settle wait, and its idle levels are LATCH 0 and CLK 1. -/
theorem initNesNextState : Obligations.InitNesNextState := by
  intro s hready hf
  rw [exec_init_wait (us := s.build.tInitNesUs) hready (by simp only [initSteps, hf, nesInitSteps]), hf]
  rfl

/-- Settles O15: the body of a TG16 block's INIT is one settle wait, and its idle levels are OE ENABLE and DSEL 0. -/
theorem initTg16NextState : Obligations.InitTg16NextState := by
  intro s hready hf
  rw [exec_init_wait (us := s.build.tInitTg16Us) hready (by simp only [initSteps, hf, tg16InitSteps]), hf]
  rfl

/-- A DB9 block's INIT at its branch on Identify: the settle and the full read are done, in the window (R104, R160). -/
def atIdentify (s : State) : State :=
  { s with
    cur := encode .init, busy := true, fsm := []
    initOk := false, first := false, kind := .none, linesEn := true
    raw := db9FullRaw s.busAt, phase := 5#3
    lines := { s.lines with sel := true }
    savedIe := s.hostIe, hostIe := false, waitCnt := 0, waits := s.waits + 9
    pad := s.pad.drop 5, samples := s.samples + 5
    trace := s.trace ++ [.hostIe false, .idleDrive, .wait (s.build.literals.tDb9InitMs * 1000)] ++
      db9FullEvents s.build.literals s.busAt }

/-- A DB9 block's INIT comes to its branch on Identify with steps to spare. -/
theorem exec_init_db9 {s : State} (hready : s.ready) (hf : s.build.family = .db9) :
    ∃ n, 19 ≤ n ∧ exec .init s = .next (runFor n (branchOnIdentity (atIdentify s))) := by
  have htable : initSteps s.build = initHeadSteps ++ db9InitSteps s.build.literals ++ [.identify] := by
    simp only [initSteps, hf]
  have hbody : ∀ a ∈ db9InitSteps s.build.literals, worksLines a = true :=
    List.forall_mem_append.2 ⟨by simp [worksLines], db9ReadFullSteps_worksLines _⟩
  obtain ⟨n, hn, he⟩ := exec_init_body hready htable hbody
    (by simp [db9InitSteps, db9ReadFullSteps, pulseSteps, selSteps, stepsCost, stepCost])
  obtain ⟨m, rfl⟩ := Nat.exists_eq_add_of_le' (show 1 ≤ n by omega)
  refine ⟨m, by omega, ?_⟩
  rw [he, runFor_cons m _ rfl, doAct, db9InitSteps, effects_append, wait_effects, db9ReadFullSteps_effects,
    initHeadSteps_effects]
  simp only [accepted, List.append_assoc, List.cons_append, List.nil_append, atIdentify, hf]
  rfl

theorem branchOnIdentity_pad {s : State} {k : Kind} (h : identify s.build.literals s.raw = .pad k) :
    branchOnIdentity s = { s with kind := k, fsm := initOkSteps } := by
  simp only [branchOnIdentity, h]

theorem branchOnIdentity_multiTap {s : State} (h : identify s.build.literals s.raw = .multiTap) :
    branchOnIdentity s = { s with fsm := initFailSteps } := by
  simp only [branchOnIdentity, h]

/-- Settles O16: the branch on Identify stores the kind and goes on with INIT's successful end. -/
theorem initDb9NextState : Obligations.InitDb9NextState := by
  intro s k hready hf hid
  have ⟨_, hbusy, _⟩ := hready
  obtain ⟨n, hn, he⟩ := exec_init_db9 hready hf
  rw [he, branchOnIdentity_pad (s := atIdentify s) hid, runFor_initOkSteps (by omega) { atIdentify s with kind := k }]
  simp only [atIdentify, respWord_init, hbusy]
  rfl

/-- Settles O17: the branch on Identify goes on with the end after a multi-tap, before the reports are touched. -/
theorem initMultitapNextState : Obligations.InitMultitapNextState := by
  intro s hready hf hid
  have ⟨_, hbusy, _⟩ := hready
  obtain ⟨n, hn, he⟩ := exec_init_db9 hready hf
  rw [he, branchOnIdentity_multiTap (s := atIdentify s) hid, runFor_initFailSteps (by omega)]
  simp only [atIdentify, respWord_init, hbusy]
  rfl

/-! ## POLL (R107) -/

theorem readSteps_straight (b : Build) (k : Kind) : ∀ a ∈ readSteps b k, straight a = true :=
  fun a ha => straight_of_worksLines (readSteps_worksLines b k a ha)

theorem readSteps_cost (b : Build) (k : Kind) : stepsCost (readSteps b k) ≤ 100 := by
  unfold readSteps
  split
  · simp [nesReadSteps, nesBitsSteps, nesBitSteps, Config.nesBits, stepsCost, stepCost]
  · simp [tg16ReadSteps, stepsCost, stepCost]
  · split
    · simp [db9ReadShortSteps, selSteps, stepsCost, stepCost]
    · simp [db9ReadFullSteps, pulseSteps, selSteps, stepsCost, stepCost]

/-- A POLL whose table is its read between the straight stretches `pre` and `post`, left alone. -/
theorem exec_poll {s : State} {pre post : List Act} (hready : s.ready) (hinit : s.initOk = true)
    (htable : pollSteps s.build s.kind = pre ++ readSteps s.build s.kind ++ (post ++ [.complete .ok false 0#8]))
    (hpre : ∀ a ∈ pre, straight a = true) (hpost : ∀ a ∈ post, straight a = true)
    (hcost : stepsCost pre + stepsCost post ≤ 26) :
    exec .poll s = .next (complete .ok false 0#8
      (effects post (effects (readSteps s.build s.kind) (effects pre (accepted (encode .poll) s))))) := by
  have hfsm : (accepted (encode .poll) s).fsm =
      (pre ++ readSteps s.build s.kind ++ post) ++ [.complete .ok false 0#8] := by
    rw [accepted_encode_fsm fun _ => hinit, List.append_assoc _ post]
    exact htable
  have hread := readSteps_cost s.build s.kind
  rw [exec_eq_issue, issue_table hready hfsm, effects_append, effects_append]
  · exact List.forall_mem_append.2 ⟨List.forall_mem_append.2 ⟨hpre, readSteps_straight _ _⟩, hpost⟩
  · simp only [stepsCost_append]
    omega

/-- Outside DB9 POLL reads and translates, with no masking window (R107). -/
theorem exec_poll_unmasked {s : State} (hready : s.ready) (hinit : s.initOk = true) (hf : s.build.family ≠ .db9) :
    exec .poll s = .next (complete .ok false 0#8 (storeTranslation
      (effects (readSteps s.build s.kind) (accepted (encode .poll) s)))) := by
  refine exec_poll (pre := []) (post := [.translate]) hready hinit ?_ (by simp) (by simp [straight, endsTable])
    (by simp [stepsCost, stepCost])
  cases h : s.build.family with
  | db9 => exact absurd h hf
  | nes | tg16 => simp only [pollSteps, h, List.nil_append, List.cons_append]

/-- A DB9 block's POLL reads inside a masking window, and translates after it (R107, R251). -/
theorem exec_poll_masked {s : State} (hready : s.ready) (hinit : s.initOk = true) (hf : s.build.family = .db9) :
    exec .poll s = .next (complete .ok false 0#8 (storeTranslation (restoreIrq
      (effects (readSteps s.build s.kind) (maskIrq (accepted (encode .poll) s)))))) :=
  exec_poll (pre := [.maskIrq]) (post := [.restoreIrq, .translate]) hready hinit
    (by simp only [pollSteps, hf, List.nil_append, List.cons_append]) (by simp [straight, endsTable])
    (by simp [straight, endsTable]) (by simp [stepsCost, stepCost])

/-- RAW[0] has bank B in its high nibble and bank A in its low one (R184). -/
theorem packBanks_eq_append (a b : BitVec 4) : packBanks a b = b ++ a := by
  ext i hi
  rw [BitVec.getElem_append]
  interval_cases i <;> simp [packBanks]

theorem respWord_poll : respWord (fieldOp (encode .poll)) 0#8 false .ok = 0x00010000#32 := by decide

/-- Settles O19: the 43-event read stands alone, and its byte is what is translated. -/
theorem pollNesNextState : Obligations.PollNesNextState := by
  intro s hready hinit hf
  have ⟨_, hbusy, _⟩ := hready
  have hread : readSteps s.build s.kind = nesReadSteps s.build.literals := by simp only [readSteps, hf]
  rw [exec_poll_unmasked hready hinit (by simp [hf]), hread]
  simp only [nesReadSteps_effects, complete, storeTranslation, accepted, respWord_poll, hbusy, hf]
  rfl

/-- Settles O25: the 9-event read stands alone, and the two banks it packs are the nibbles of RAW[0]. -/
theorem pollTg16NextState : Obligations.PollTg16NextState := by
  intro s hready hinit hf
  have ⟨_, hbusy, _⟩ := hready
  have hread : readSteps s.build s.kind = tg16ReadSteps s.build.literals := by simp only [readSteps, hf]
  rw [exec_poll_unmasked hready hinit (by simp [hf]), hread]
  simp only [tg16ReadSteps_effects, complete, storeTranslation, accepted, respWord_poll, hbusy, hf,
    packBanks_eq_append]
  rfl

/-- Settles O22: a KIND that is neither ATARI nor SMS takes the full read, and the window it stands in gives
HOST_IE back. -/
theorem pollDb9FullNextState : Obligations.PollDb9FullNextState := by
  intro s hready hinit hf hatari hsms
  have ⟨_, hbusy, _⟩ := hready
  have hread : readSteps s.build s.kind = db9ReadFullSteps s.build.literals := by
    simp only [readSteps, hf, hatari, hsms, or_self, if_false]
  rw [exec_poll_masked hready hinit hf, hread]
  simp only [db9ReadFullSteps_effects, maskIrq, restoreIrq, emit, complete, storeTranslation, accepted, respWord_poll,
    hbusy, hf]
  rfl

/-- Settles O23: ATARI and SMS take the short read, which drives SEL to 1 only, and the window gives HOST_IE back. -/
theorem pollDb9ShortNextState : Obligations.PollDb9ShortNextState := by
  intro s hready hinit hf hkind
  have ⟨_, hbusy, _⟩ := hready
  have hread : readSteps s.build s.kind = db9ReadShortSteps s.build.literals := by
    simp only [readSteps, hf, if_pos hkind]
  rw [exec_poll_masked hready hinit hf, hread]
  simp only [db9ReadShortSteps_effects, maskIrq, restoreIrq, emit, complete, storeTranslation, accepted, respWord_poll,
    hbusy, hf]
  rfl

end Sys2Proof.Machine
end

section
/-! SUPPORT. The output lines come back to their idle levels (R131, R151, R181, R256), and the NES byte and events (R134,
R135). -/

namespace Sys2Proof.Machine

/-! ## The lines after a list of steps -/

theorem linesAfter_append (f : Family) (l r : List Act) (L : Lines) :
    linesAfter f (l ++ r) L = linesAfter f r (linesAfter f l L) := by
  induction l generalizing L with
  | nil => rfl
  | cons a l ih =>
    rw [List.cons_append]
    cases a <;> exact ih _

theorem linesAfter_cons (f : Family) (a : Act) (rest : List Act) (L : Lines) :
    linesAfter f (a :: rest) L = linesAfter f rest (linesAfter f [a] L) := linesAfter_append f [a] rest L

theorem doAct_lines (a : Act) (s : State) : (doAct a s).lines = linesAfter s.build.family [a] s.lines := by
  cases a with
  | identify =>
    simp only [doAct, branchOnIdentity]
    split <;> rfl
  | _ => rfl

theorem linesIdle_idleLines (f : Family) (L : Lines) : linesIdle f (idleLines f L) := by
  cases f with
  | db9 => exact rfl
  | nes | tg16 => exact ⟨rfl, rfl⟩

/-- Every read sequence leaves its family's lines idle, wherever they were (R131, R155, R157, R183). -/
theorem linesIdle_readSteps (b : Build) (k : Kind) (L : Lines) :
    linesIdle b.family (linesAfter b.family (readSteps b k) L) := by
  unfold readSteps
  cases b.family with
  | nes | tg16 => exact ⟨rfl, rfl⟩
  | db9 =>
    dsimp only
    split <;> exact rfl

/-- POLL's lines are its read's: the window, the translation and the completion drive none (R107). -/
theorem linesIdle_pollSteps (b : Build) (k : Kind) (L : Lines) :
    linesIdle b.family (linesAfter b.family (pollSteps b k) L) := by
  have hread := linesIdle_readSteps b k L
  unfold pollSteps
  split <;> simpa only [linesAfter_append, linesAfter] using hread

/-- INIT puts the lines at their idle levels; its body is a wait, or for DB9 the full read, which ends there (R104). -/
theorem linesIdle_initSteps (b : Build) (L : Lines) :
    linesIdle b.family (linesAfter b.family (initSteps b) L) := by
  have hidle := linesIdle_idleLines b.family L
  unfold initSteps
  cases hf : b.family with
  | nes | tg16 => rwa [hf] at hidle
  | db9 => exact rfl

/-! ## The step tables leave the lines idle -/

/-- A list of steps that leaves idle lines idle, and that drives the lines to idle itself where it enables them. -/
structure LeavesLinesIdle (f : Family) (l : List Act) : Prop where
  of_idle : ∀ L, linesIdle f L → linesIdle f (linesAfter f l L)
  of_enableLines : .enableLines ∈ l → ∀ L, linesIdle f (linesAfter f l L)

theorem LeavesLinesIdle.of_forall {f : Family} {l : List Act} (h : ∀ L, linesIdle f (linesAfter f l L)) :
    LeavesLinesIdle f l := ⟨fun L _ => h L, fun _ => h⟩

theorem stepsOf_leavesLinesIdle (i : Instr) (s : State) : LeavesLinesIdle s.build.family (stepsOf i s) := by
  cases i with
  | init => exact .of_forall (linesIdle_initSteps s.build)
  | poll => exact .of_forall (linesIdle_pollSteps s.build s.kind)
  | hasChanged rid => exact ⟨fun _ h => h, by simp [stepsOf, hasChangedSteps]⟩
  | buildReport rid addr => exact ⟨fun _ h => h, by simp [stepsOf, buildReportSteps, emitReportSteps]⟩
  | buildReportNull rid => exact ⟨fun _ h => h, by simp [stepsOf, buildReportNullSteps, emitReportSteps]⟩

theorem checkedSteps_leavesLinesIdle (s : State) : LeavesLinesIdle s.build.family (checkedSteps s) := by
  unfold checkedSteps
  split
  · exact ⟨fun _ h => h, by simp⟩
  · split
    · exact ⟨fun _ h => h, by simp⟩
    · exact stepsOf_leavesLinesIdle _ s

/-- What a step that ends its table puts in place leaves idle lines idle. -/
theorem doAct_leavesLinesIdle {a : Act} (s : State) (h : endsTable a = true) :
    LeavesLinesIdle s.build.family (doAct a s).fsm := by
  cases a with
  | check => exact checkedSteps_leavesLinesIdle s
  | complete code changed n => exact ⟨fun _ h => h, by simp [doAct]⟩
  | compare => exact ⟨fun _ h => h, by simp [doAct, compareReports]⟩
  | identify =>
    show LeavesLinesIdle s.build.family (branchOnIdentity s).fsm
    rcases branchOnIdentity_fsm s with he | he <;> rw [he]
    · exact ⟨fun _ h => h, by simp [initFailSteps]⟩
    · exact ⟨fun _ h => h, by simp [initOkSteps]⟩
  | _ => exact absurd h (by simp [endsTable])

/-! ## Every step keeps the lines settling -/

/-- Lines that are driven after a step were driven before it, or are enabled by it (R37). -/
theorem linesEn_or_mem_of_doAct {a : Act} {s : State} (h : (doAct a s).linesEn = true) :
    s.linesEn = true ∨ .enableLines ∈ a :: s.fsm := by
  by_cases ha : a = .enableLines
  · exact .inr (ha ▸ List.mem_cons_self)
  · exact .inl (doAct_linesEn s ha ▸ h)

/-- A step that does not end its table makes the first of the drives still to come, and leaves the others (R39: a wait puts
only its own cycles before them). -/
theorem doAct_straight_drives {a : Act} {s : State} (h : straight a = true) :
    linesAfter s.build.family (doAct a s).fsm (doAct a s).lines = linesAfter s.build.family (a :: s.fsm) s.lines ∧
    (.enableLines ∈ (doAct a s).fsm → .enableLines ∈ s.fsm) := by
  rw [linesAfter_cons, doAct_lines]
  rcases doAct_fsm_of_straight s h with he | ⟨he, -⟩ <;> rw [he]
  · exact ⟨rfl, id⟩
  · exact ⟨rfl, by simp⟩

theorem linesSettle_doAct {s : State} {a : Act} {rest : List Act} (h : LinesSettle s) (hs : s.fsm = a :: rest) :
    LinesSettle (doAct a { s with fsm := rest }) := by
  obtain ⟨hseq, hidle⟩ := h
  have ⟨_, hproper, _, _⟩ := hseq
  rw [hs] at hidle hproper
  refine ⟨(sequenced_doAct hseq hs).1, fun hon => ?_⟩
  rw [doAct_build]
  rcases properSteps_cons hproper with ⟨hend, rfl⟩ | ⟨hstr, -, -⟩
  · have hleaves := doAct_leavesLinesIdle { s with fsm := [] } hend
    rcases hon with hon | hon
    · apply hleaves.of_idle
      rw [doAct_lines]
      exact hidle (linesEn_or_mem_of_doAct (s := { s with fsm := [] }) hon)
    · exact hleaves.of_enableLines hon _
  · obtain ⟨hlines, hmem⟩ := doAct_straight_drives (s := { s with fsm := rest }) hstr
    rw [hlines]
    rcases hon with hon | hon
    · exact hidle (linesEn_or_mem_of_doAct (s := { s with fsm := rest }) hon)
    · exact hidle (.inr (List.mem_cons_of_mem a (hmem hon)))

theorem linesSettle_fsmStep {s : State} (h : LinesSettle s) : LinesSettle (fsmStep s) := by
  rcases fsmStep_cases s with ⟨-, he⟩ | ⟨a, rest, hs, he⟩ <;> rw [he]
  · exact h
  · exact linesSettle_doAct h hs

/-- A command is accepted only when none runs, and its first step, the checks, drives no line (R100). -/
theorem linesSettle_writeCmd (w : Word) {s : State} (h : LinesSettle s) : LinesSettle (writeCmd w s) := by
  obtain ⟨hseq, hidle⟩ := h
  refine ⟨sequenced_kept.cmd w s hseq, ?_⟩
  rcases writeCmd_cases w s with he | ⟨-, he⟩ | ⟨hbusy, he⟩ <;> rw [he]
  · exact hidle
  · exact hidle
  · obtain ⟨hrun, -⟩ := hseq
    have hfsm : s.fsm = [] := by
      by_contra hne
      simp [hrun.2 hne] at hbusy
    rw [hfsm] at hidle
    exact fun hon => hidle (hon.imp_right (by simp))

/-- Reset releases the lines and abandons the command (R260). -/
theorem linesSettle_setRst (v : Bool) {s : State} (h : LinesSettle s) : LinesSettle (setRst v s) := by
  obtain ⟨hseq, hidle⟩ := h
  refine ⟨sequenced_kept.rst v s hseq, ?_⟩
  rcases setRst_cases v s with he | ⟨r, tr, he⟩ <;> rw [he]
  · exact hidle
  · simp [holdReset, State.reset]

theorem linesSettle_kept : Kept LinesSettle where
  fsm _ := linesSettle_fsmStep
  pop _ _ h := h
  cmd w _ := linesSettle_writeCmd w
  readReg _ _ h := h
  readMem a s h := by
    obtain ⟨d, n, he⟩ := hostReadMem_cases a s
    rw [he]
    exact h
  writeMem a v s := fun ⟨hseq, hidle⟩ => ⟨sequenced_kept.writeMem a v s hseq, hidle⟩
  writeIe _ _ h := h
  rst v _ := linesSettle_setRst v

/-- Settles O57: a straight step makes the first of the drives still to come, every table a command puts in place ends at
the idle levels, and reset releases the lines. -/
theorem linesSettleIsKept : Obligations.LinesSettleIsKept :=
  fun _ _ h hst => linesSettle_kept.step h hst

/-! ## The NES byte and events (R134, R135) -/

@[simp] theorem pressedBit_getElem (d : BitVec 1) {i : Nat} (hi : i < 8) :
    (pressedBit d)[i] = (decide (d = 0#1) && decide (i = 0)) := by
  unfold pressedBit
  split <;> simp [*, BitVec.getElem_one]

/-- The byte's bits, from bit 7 down, are the samples in their order, in pressed sense. -/
theorem nesByte_getLsbD (d : Nat → BitVec 1) {i : Nat} (hi : i < 8) :
    (nesByte d).getLsbD i = decide (d (7 - i) = 0#1) := by
  interval_cases i <;> simp [nesByte]

/-- Settles O20: bit 8 - k of the byte is the sample of index k - 1, in pressed sense. -/
theorem nesByteBits : Obligations.NesByteBits := by
  intro d k hk hk8
  rw [nesByte_getLsbD d (by omega), show 7 - (8 - k) = k - 1 by omega, decide_eq_true_iff]

@[simp] theorem nesBitEvents_length (l : Literals) (d : BitVec 1) : (nesBitEvents l d).length = 5 := rfl

/-- Settles O21: three events of LATCH, then five for each of the eight bits. -/
theorem nesReadHas43Events : Obligations.NesReadHas43Events := by
  intro l d
  simp [nesReadEvents]

end Sys2Proof.Machine
end

section
/-! SUPPORT. The DB9 reader and identifier (42_db9_reader_identifier.md): what Identify answers in each of its branches, and
how a sample of the bus is mapped and stored. -/

namespace Sys2Proof.Machine

/-! ## Identify (R161 to R166) -/

/-- Held reads 0 (R166). -/
theorem startHeld_iff {r : Raw} : startHeld r = true ↔ r.r1.getLsbD 5 = false := by
  simp only [startHeld, Bool.not_eq_true']

theorem identify_of_multiTap {l : Literals} {r : Raw} (h : lowNibble r.r0 = l.nibMultitap) :
    identify l r = .multiTap := if_pos h

/-- The Start override comes after the multi-tap test and replaces whatever the classification gives (R166). -/
theorem identify_of_startHeld {l : Literals} {r : Raw} (h : lowNibble r.r0 ≠ l.nibMultitap)
    (hs : r.r1.getLsbD 5 = false) : identify l r = .pad .genesis6 :=
  (if_neg h).trans (if_pos (startHeld_iff.2 hs))

theorem identify_of_startReleased {l : Literals} {r : Raw} (h : lowNibble r.r0 ≠ l.nibMultitap)
    (hs : r.r1.getLsbD 5 = true) : identify l r = .pad (classify l r) :=
  (if_neg h).trans (if_neg (by rw [startHeld_iff, hs]; decide))

/-- Phases 1 and 2 of a Genesis pad; phases 4 and 5 then tell its two kinds apart (R163, R164). -/
theorem classify_of_genesis {l : Literals} {r : Raw} (h1 : lowNibble r.r0 = l.nibNoConnect)
    (h2 : lowNibble r.r1 = l.nibGenLow) :
    classify l r =
      if lowNibble r.r3 = l.nibGenLow ∧ lowNibble r.r4 = l.nibGenLow then .genesis3 else .genesis6 :=
  if_pos ⟨h1, h2⟩

/-- Every other pattern is the SMS default (R165). -/
theorem classify_of_not_genesis {l : Literals} {r : Raw}
    (h : ¬ (lowNibble r.r0 = l.nibNoConnect ∧ lowNibble r.r1 = l.nibGenLow)) : classify l r = .sms := if_neg h

/-- Settles O18: past the multi-tap test a held Start decides alone, and a released one leaves the classification, which
asks for the two Genesis nibbles first. -/
theorem identifyTruthTable : Obligations.IdentifyTruthTable := by
  intro r n1 n2 n4 n5 s
  have noTap (h1 : n1 = 0xf#4) : n1 ≠ 0x3#4 := by rw [h1]; decide
  have released (h1 : n1 ≠ 0x3#4) (hs : s = true) : identify .source r = .pad (classify .source r) :=
    identify_of_startReleased h1 hs
  have genesis (h1 : n1 = 0xf#4) (h2 : n2 = 0x3#4) :
      classify .source r = if n4 = 0x3#4 ∧ n5 = 0x3#4 then .genesis3 else .genesis6 := classify_of_genesis h1 h2
  have sms (h : ¬ (n1 = 0xf#4 ∧ n2 = 0x3#4)) : classify .source r = .sms := classify_of_not_genesis h
  refine ⟨fun h1 => identify_of_multiTap h1, fun h1 h2 h4 h5 hs => ?_, fun h1 h2 h4 hs => ?_,
    fun h1 h2 _ h5 hs => ?_, fun h1 h2 hs => ?_, fun h1 hf hs => ?_, fun h1 hs => identify_of_startHeld h1 hs⟩
  · rw [released (noTap h1) hs, genesis h1 h2, if_pos ⟨h4, h5⟩]
  · rw [released (noTap h1) hs, genesis h1 h2, if_neg fun h => h4 h.1]
  · rw [released (noTap h1) hs, genesis h1 h2, if_neg fun h => h5 h.2]
  · rw [released (noTap h1) hs, sms fun h => h2 h.2]
  · rw [released h1 hs, sms fun h => hf h.1]

/-! ## Samples of the bus (R152, R153) -/

theorem busLines_getLsbD (m : PinMap) (p : BitVec 6) (i : Fin 6) :
    (busLines m p).getLsbD i = p.getLsbD m.lines[i] := by
  fin_cases i <;> simp [busLines]

/-- DB9_PIN_MAP is a permutation, so it leaves no physical line out (R7). -/
theorem pinMap_lines_surjective (m : PinMap) : Function.Surjective fun i : Fin 6 => m.lines[i] := by
  have hnodup : m.lines.toList.Nodup := of_decide_eq_true m.perm
  refine Finite.surjective_of_injective fun i j h => Fin.ext ?_
  exact (hnodup.getElem_inj_iff (hi := by simp) (hj := by simp)).1 h

theorem zext8_extractLsb'_low (v : BitVec 6) : (zext8 v).extractLsb' 0 6 = v := by
  ext i hi
  simp [zext8, show i < 8 by omega, BitVec.getLsbD_eq_getElem hi]

theorem zext8_extractLsb'_high (v : BitVec 6) : (zext8 v).extractLsb' 6 2 = 0#2 := by
  ext i hi
  simp [zext8]

/-- The marker has the high bits set, a stored sample has them clear. -/
theorem zext8_ne_rawInvalid (v : BitVec 6) : zext8 v ≠ Literals.source.rawInvalid := by
  intro h
  have hhigh := zext8_extractLsb'_high v
  rw [h] at hhigh
  exact absurd hhigh (by decide)

/-- Settles O24: the six bits one by one, the pin map onto because it repeats no line, and the two fields of a stored byte. -/
theorem busSampleBits : Obligations.BusSampleBits :=
  ⟨busLines_getLsbD, pinMap_lines_surjective,
    fun v => ⟨zext8_extractLsb'_low v, zext8_extractLsb'_high v, zext8_ne_rawInvalid v⟩⟩

end Sys2Proof.Machine
end

section
/-! SUPPORT. The translator (44_translator.md): what each table gives bit by bit, and that POLL's CANON is a function of the
samples it reads. -/

namespace Sys2Proof.Machine

/-! ## The pressed bits (R191) and the axes (R192) -/

theorem pressedTg16_getLsbD (r : Byte) {i : Nat} (hi : i < 8) :
    (pressedTg16 r).getLsbD i = !r.getLsbD i := by
  interval_cases i <;> simp [pressedTg16]

/-- A phase holds six lines, so bits 7 and 6 are never pressed and no table names them. -/
theorem pressedPhase_getLsbD (r : Byte) {i : Nat} (hi : i < 6) :
    (pressedPhase r).getLsbD i = !r.getLsbD i := by
  interval_cases i <;> simp [pressedPhase]

/-- Settles O27: the maximum direction is tested last, so it wins. -/
theorem axisQuantisation : Obligations.AxisQuantisation := ⟨rfl, rfl, rfl, rfl⟩

/-! ## Button masks -/

/-- Masking a mask clears the arguments whose bit is clear. -/
theorem mask_and (b0 b1 b2 b3 b4 b5 b6 b7 : Bool) (m : Byte) :
    mask b0 b1 b2 b3 b4 b5 b6 b7 &&& m =
      mask (b0 && m.getLsbD 0) (b1 && m.getLsbD 1) (b2 && m.getLsbD 2) (b3 && m.getLsbD 3)
        (b4 && m.getLsbD 4) (b5 && m.getLsbD 5) (b6 && m.getLsbD 6) (b7 && m.getLsbD 7) := by
  refine BitVec.eq_of_getLsbD_eq fun i hi => ?_
  rw [BitVec.getLsbD_and]
  interval_cases i <;> simp only [mask_bits]

theorem mask_false : mask false false false false false false false false = 0#8 := rfl

/-- The ATARI mask has bit 1 only (R195). -/
theorem mask_and_atari (b1 : Bool) : mask false b1 false false false false false false &&& 0xFD#8 = 0#8 := by
  simp [mask_and, mask_false]

/-- The SMS mask has bits 1 and 2 only (R196). -/
theorem mask_and_sms (b1 b2 : Bool) : mask false b1 b2 false false false false false &&& 0xF9#8 = 0#8 := by
  simp [mask_and, mask_false]

/-- The GENESIS3 mask has bits 1, 2, 4 and 7 only (R197). -/
theorem mask_and_genesis3 (b1 b2 b4 b7 : Bool) :
    mask false b1 b2 false b4 false false b7 &&& 0x69#8 = 0#8 := by
  simp [mask_and, mask_false]

theorem mask_extractLsb'_high (b0 b1 b2 b3 : Bool) :
    (mask b0 b1 b2 b3 false false false false).extractLsb' 4 4 = 0#4 := by
  ext i hi
  interval_cases i <;> simp [mask]

/-! ## The tables (R190, R194 to R199) -/

theorem translateRaw_nes (k : Kind) (r : Raw) : translateRaw .nes k r = canonOf (lutNes r.r0) := rfl

theorem translateRaw_tg16 (k : Kind) (r : Raw) :
    translateRaw .tg16 k r = canonOf (lutTg16 (pressedTg16 r.r0)) := rfl

theorem translateRaw_atari (r : Raw) :
    translateRaw .db9 .atari r = canonOf (lutAtari (pressedPhase r.r0)) := rfl

theorem translateRaw_sms (r : Raw) : translateRaw .db9 .sms r = canonOf (lutSms (pressedPhase r.r0)) := rfl

theorem translateRaw_genesis3 (r : Raw) :
    translateRaw .db9 .genesis3 r = canonOf (lutGenesis3 (pressedPhase r.r0) (pressedPhase r.r1)) := rfl

theorem translateRaw_genesis6 (r : Raw) :
    translateRaw .db9 .genesis6 r =
      canonOf (lutGenesis6 (pressedPhase r.r0) (pressedPhase r.r1) (pressedPhase r.r4)) := rfl

/-- Every DB9 kind that has a table takes its directions from phase 1; the tables differ in the mask only. -/
theorem translateRaw_db9_directions {k : Kind} (r : Raw) (hk : k ≠ .none) :
    ∃ btn, translateRaw .db9 k r = canonOf (db9Buttons (pressedPhase r.r0) btn) := by
  cases k with
  | none => exact absurd rfl hk
  | atari | sms | genesis3 | genesis6 => exact ⟨_, rfl⟩

/-- Settles O28: RAW[0] is in pressed sense already, and the mask has the four buttons in its low bits. -/
theorem translateNesTable : Obligations.TranslateNesTable := by
  intro k r
  simp only [translateRaw_nes, canonOf, lutNes, mask_bits, mask_extractLsb'_high, and_self]

/-- Settles O29: as the NES table, over the complement of RAW[0]. -/
theorem translateTg16Table : Obligations.TranslateTg16Table := by
  intro k r
  simp only [translateRaw_tg16, canonOf, lutTg16, mask_bits, mask_extractLsb'_high, pressedTg16_getLsbD, Nat.reduceLT,
    and_self]

/-- Settles O30: the directions are shared by the kinds; each kind's mask has the table's bits and clears the others. -/
theorem translateDb9Tables : Obligations.TranslateDb9Tables := by
  intro r
  refine ⟨fun k hk => ?_, ?_, ?_, ?_, ?_⟩
  · obtain ⟨btn, h⟩ := translateRaw_db9_directions r hk
    simp only [h, canonOf, db9Buttons, pressedPhase_getLsbD, Nat.reduceLT, and_self]
  · simp only [translateRaw_atari, canonOf, lutAtari, db9Buttons, mask_bits, mask_and_atari, pressedPhase_getLsbD,
      Nat.reduceLT, and_self]
  · simp only [translateRaw_sms, canonOf, lutSms, db9Buttons, mask_bits, mask_and_sms, pressedPhase_getLsbD,
      Nat.reduceLT, and_self]
  · simp only [translateRaw_genesis3, canonOf, lutGenesis3, db9Buttons, mask_bits, mask_and_genesis3,
      pressedPhase_getLsbD, Nat.reduceLT, and_self]
  · simp only [translateRaw_genesis6, canonOf, lutGenesis6, db9Buttons, mask_bits, pressedPhase_getLsbD, Nat.reduceLT,
      and_self]

/-- Settles O31: each family's table at its released levels, for the phases the table reads. -/
theorem nothingPressedIsNeutral : Obligations.NothingPressedIsNeutral := by
  refine ⟨fun k r h => ?_, fun k r h => ?_, fun r h => ⟨?_, ?_, fun h2 => ?_, fun h2 h5 => ?_⟩⟩
  · rw [translateRaw_nes, h]; rfl
  · rw [translateRaw_tg16, h]; rfl
  · rw [translateRaw_atari, h]; rfl
  · rw [translateRaw_sms, h]; rfl
  · rw [translateRaw_genesis3, h, h2]; rfl
  · rw [translateRaw_genesis6, h, h2, h5]; rfl

/-! ## CANON after POLL is a function of the samples (R190) -/

/-- Outside DB9, and for the two kinds the short read serves, Translate looks at RAW[0] alone. -/
theorem translateRaw_congr_r0 {f : Family} {k : Kind} {r r' : Raw} (hk : f = .db9 → k = .atari ∨ k = .sms)
    (h : r.r0 = r'.r0) : translateRaw f k r = translateRaw f k r' := by
  cases f with
  | nes => rw [translateRaw_nes, translateRaw_nes, h]
  | tg16 => rw [translateRaw_tg16, translateRaw_tg16, h]
  | db9 =>
    obtain rfl | rfl := hk rfl
    · rw [translateRaw_atari, translateRaw_atari, h]
    · rw [translateRaw_sms, translateRaw_sms, h]

theorem nesByte_congr {d d' : Nat → BitVec 1} (h : ∀ k < 8, d k = d' k) : nesByte d = nesByte d' := by
  refine BitVec.eq_of_getLsbD_eq fun i hi => ?_
  rw [nesByte_getLsbD d hi, nesByte_getLsbD d' hi, h _ (by omega)]

theorem db9FullRaw_congr {b b' : Nat → BitVec 6} (h : ∀ k < 5, b k = b' k) : db9FullRaw b = db9FullRaw b' := by
  simp [db9FullRaw, h]

/-- What POLL leaves in RAW: the bytes of the read its family and kind take, over what RAW held (R108). -/
def polledRaw (s : State) : Raw :=
  match s.build.family with
  | .nes => { s.raw with r0 := nesByte s.dataAt }
  | .tg16 => { s.raw with r0 := s.tbusAt 1 ++ s.tbusAt 0 }
  | .db9 =>
    if s.kind = .atari ∨ s.kind = .sms then db9ShortRaw s.build.literals (s.busAt 0) else db9FullRaw s.busAt

/-- A POLL run undisturbed translates the bytes it read. -/
theorem canon_of_exec_poll {s t : State} (hready : s.ready) (hinit : s.initOk = true)
    (ht : exec .poll s = .next t) : t.canon = translateRaw s.build.family s.kind (polledRaw s) := by
  cases hf : s.build.family with
  | nes =>
    rw [pollNesNextState s hready hinit hf] at ht
    cases ht
    simp only [polledRaw, hf]
  | tg16 =>
    rw [pollTg16NextState s hready hinit hf] at ht
    cases ht
    simp only [polledRaw, hf]
  | db9 =>
    by_cases hk : s.kind = .atari ∨ s.kind = .sms
    · rw [pollDb9ShortNextState s hready hinit hf hk] at ht
      cases ht
      simp only [polledRaw, hf, if_pos hk]
    · have ⟨hatari, hsms⟩ := not_or.1 hk
      rw [pollDb9FullNextState s hready hinit hf hatari hsms] at ht
      cases ht
      simp only [polledRaw, hf, if_neg hk]

/-- What Translate looks at of the bytes read is fixed by the family, the kind, the pin map and the samples: the bytes a
read leaves alone, and the marker of the short read, are in no table. -/
theorem translateRaw_polledRaw_congr {s s' : State} (hf : s.build.family = s'.build.family)
    (hm : s.build.pinMap = s'.build.pinMap) (hk : s.kind = s'.kind) (h : ∀ k < 8, s.lineAt k = s'.lineAt k) :
    translateRaw s.build.family s.kind (polledRaw s) = translateRaw s'.build.family s'.kind (polledRaw s') := by
  have hdata (k : Nat) (hlt : k < 8) : s.dataAt k = s'.dataAt k := congrArg dataLine (h k hlt)
  have htbus (k : Nat) (hlt : k < 8) : s.tbusAt k = s'.tbusAt k := congrArg tbusLines (h k hlt)
  have hbus (k : Nat) (hlt : k < 8) : s.busAt k = s'.busAt k := congrArg₂ busLines hm (h k hlt)
  rw [← hf, ← hk]
  cases hfam : s.build.family with
  | nes =>
    refine translateRaw_congr_r0 (by simp) ?_
    simp only [polledRaw, ← hf, hfam, nesByte_congr hdata]
  | tg16 =>
    refine translateRaw_congr_r0 (by simp) ?_
    simp only [polledRaw, ← hf, hfam, htbus 0 (by decide), htbus 1 (by decide)]
  | db9 =>
    by_cases hshort : s.kind = .atari ∨ s.kind = .sms
    · refine translateRaw_congr_r0 (fun _ => hshort) ?_
      simp only [polledRaw, ← hf, ← hk, hfam, if_pos hshort, db9ShortRaw, hbus 0 (by decide)]
    · have hfull : db9FullRaw s.busAt = db9FullRaw s'.busAt := db9FullRaw_congr fun k hlt => hbus k (by omega)
      simp only [polledRaw, ← hf, ← hk, hfam, if_neg hshort, hfull]

/-- Settles O26: both POLLs translate the bytes they read, and what Translate looks at of them is the same. -/
theorem pollDependsOnlyOnItsSamples : Obligations.PollDependsOnlyOnItsSamples := by
  intro s s' t t' hready hready' hinit hinit' hf hm hk hsame ht ht'
  rw [canon_of_exec_poll hready hinit ht, canon_of_exec_poll hready' hinit' ht']
  exact translateRaw_polledRaw_congr hf hm hk hsame

end Sys2Proof.Machine
end

section
/-! SUPPORT. The report formatter (45_report_formatter.md): the whole next states of HAS_CHANGED and of BUILD_REPORT with the
null buffer, what one report command leaves for the next, and that the report identifier is ignored. -/

namespace Sys2Proof.Machine

/-! ## The change predicate (R222, R223) -/

theorem differs_iff {c l : Report} : differs c l = true ↔ c ≠ l := by
  cases c
  cases l
  simp only [differs, Bool.or_eq_true, bne_iff_ne, ne_eq, Report.mk.injEq]
  tauto

theorem changedNow_iff {s : State} : changedNow s = true ↔ s.first = true ∨ s.canon ≠ s.last := by
  rw [changedNow, Bool.or_eq_true, differs_iff]

/-! ## HAS_CHANGED left alone -/

/-- HAS_CHANGED's table (R223): the comparison puts in place the clearing of FIRST and the completion with its result. -/
theorem runFor_hasChangedSteps {n : Nat} (hn : 3 ≤ n) {s : State} (hs : s.fsm = hasChangedSteps) :
    runFor n s = complete .ok (changedNow s) 0#8 (clearFirst s) := by
  obtain ⟨m, rfl⟩ := Nat.exists_eq_add_of_le' (show 1 ≤ n by omega)
  have htable : (compareReports { s with fsm := [] }).fsm = [.clearFirst] ++ [.complete .ok (changedNow s) 0#8] := rfl
  have hcost : stepsCost [.clearFirst] + 1 ≤ m := by
    simp only [stepsCost, stepCost]
    omega
  rw [runFor_cons m s hs, doAct, runFor_table htable (by simp [straight, endsTable]) hcost]
  rfl

theorem respWord_hasChanged (rid : Byte) (changed : Bool) :
    respWord (fieldOp (encode (.hasChanged rid))) 0#8 changed .ok =
      if changed = true then 0x00020004#32 else 0x00020000#32 := by
  rw [encode, fieldOp_packWord]
  revert changed
  decide

/-- Settles O32: the checks put the comparison in place, and its result is FIRST or a difference between the reports. -/
theorem hasChangedNextState : Obligations.HasChangedNextState := by
  intro rid s hready hinit
  have ⟨_, hbusy, _⟩ := hready
  have htable : (accepted (encode (.hasChanged rid)) s).fsm = hasChangedSteps := accepted_encode_fsm fun _ => hinit
  obtain ⟨n, hn, he⟩ := issue_ready (encode (.hasChanged rid)) s hready
  rw [exec_eq_issue, he, runFor_hasChangedSteps (by omega) htable]
  simp only [complete, clearFirst, accepted, respWord_hasChanged, changedNow_iff, hbusy]

/-! ## BUILD_REPORT with the null buffer left alone -/

theorem respWord_buildReportNull (rid : Byte) :
    respWord (fieldOp (encode (.buildReportNull rid))) 3#8 false .ok = 0x00030300#32 := by
  rw [encode, fieldOp_packWord]
  decide

/-- Settles O35: the table is LAST's update and the completion. -/
theorem buildReportNullNextState : Obligations.BuildReportNullNextState := by
  intro rid s hready hinit
  have ⟨_, hbusy, _⟩ := hready
  have htable : (accepted (encode (.buildReportNull rid)) s).fsm = [.copyLast] ++ [.complete .ok false 3#8] :=
    accepted_encode_fsm fun _ => hinit
  rw [exec_eq_issue, issue_table hready htable (by simp [straight, endsTable]) (by simp [stepsCost, stepCost])]
  simp only [effects, effect, doAct, copyLast, complete, accepted, respWord_buildReportNull, hbusy]

/-! ## Writing what memory already reads -/

theorem mem_of_cellsRead {l : List Host.Cell} {a : Nat} {v : Byte} (h : cellsRead l a = some v) : (a, v) ∈ l := by
  induction l with
  | nil => cases h
  | cons c rest ih =>
    rw [cellsRead] at h
    split at h
    · next hc =>
      obtain rfl := Option.some.inj h
      subst hc
      exact List.mem_cons_self
    · exact List.mem_cons_of_mem _ (ih h)

theorem cellsWrite_of_read {l : List Host.Cell} {a : Nat} {v : Byte} (hl : cellsRise l = true)
    (h : cellsRead l a = some v) : cellsWrite l a v = l := by
  induction l with
  | nil => cases h
  | cons c rest ih =>
    obtain ⟨hc, hrest⟩ := (cellsRise_cons c rest).1 hl
    rcases List.mem_cons.1 (mem_of_cellsRead h) with rfl | hmem
    · simp [cellsWrite]
    · have hlt : c.1 < a := hc _ hmem
      rw [cellsRead, if_neg hlt.ne] at h
      rw [cellsWrite, if_neg hlt.not_gt, if_neg hlt.ne', ih hrest h]

/-- In canonical memory a byte written where it already reads changes nothing. -/
theorem write_of_read {m : Memory} {a : Nat} {v : Byte} (hm : m.wf = true) (h : m.read a = some v) : m.write a v = m :=
  congrArg Memory.mk (cellsWrite_of_read (Bool.and_eq_true_iff.1 hm).1 h)

theorem write_three_keeps_wf {m : Memory} {f : Fin 3 → Nat} (r : Report) (hf : ∀ i, f i < 65536) (hm : m.wf = true) :
    (((m.write (f 0) r.x).write (f 1) r.y).write (f 2) r.btn).wf = true :=
  write_keeps_wf _ _ _ (hf 2) (write_keeps_wf _ _ _ (hf 1) (write_keeps_wf _ _ _ (hf 0) hm))

/-- A report written where its bytes already read changes nothing. -/
theorem write_three_of_read {m : Memory} {f : Fin 3 → Nat} {r : Report} (hm : m.wf = true)
    (h : ∀ i, m.read (f i) = some (reportByte r i)) :
    ((m.write (f 0) r.x).write (f 1) r.y).write (f 2) r.btn = m := by
  rw [write_of_read (v := r.x) hm (h 0), write_of_read (v := r.y) hm (h 1), write_of_read (v := r.btn) hm (h 2)]

/-! ## One report command after another (R225) -/

/-- HAS_CHANGED answers 0 once FIRST is 0 and LAST is CANON. -/
theorem exec_hasChanged_unchanged (r : Byte) {s : State} (hready : s.ready) (hinit : s.initOk = true)
    (hfirst : s.first = false) (hlast : s.last = s.canon) :
    ∃ t, exec (.hasChanged r) s = .next t ∧ t.resp = 0x00020000#32 :=
  ⟨_, hasChangedNextState r s hready hinit, if_neg (by simp [hfirst, hlast])⟩

/-- Settles O36: either form of BUILD_REPORT leaves LAST at CANON, and FIRST, INIT_OK and readiness as they were. -/
theorem buildThenHasChangedIsUnchanged : Obligations.BuildThenHasChangedIsUnchanged := by
  intro b r s hready hinit hfirst hb
  have hbuilt : ∃ t, exec b s = .next t ∧ t.ready ∧ t.initOk = true ∧ t.first = false ∧ t.last = t.canon := by
    rcases hb with ⟨rid, addr, rfl⟩ | ⟨rid, rfl⟩
    · exact ⟨_, buildReportNextState rid addr s hready hinit, hready, hinit, hfirst, rfl⟩
    · exact ⟨_, buildReportNullNextState rid s hready hinit, hready, hinit, hfirst, rfl⟩
  obtain ⟨t, ht, hready', hinit', hfirst', hlast⟩ := hbuilt
  obtain ⟨u, hu⟩ := exec_hasChanged_unchanged r hready' hinit' hfirst' hlast
  exact ⟨t, u, ht, hu⟩

/-- Settles O37: the second report finds its own bytes in its buffer, so each of its writes changes nothing. -/
theorem buildReportTwiceIsIdempotent : Obligations.BuildReportTwiceIsIdempotent := by
  intro r1 r2 addr s hready hinit hwf
  obtain ⟨hread, -⟩ := read_write_three s.mem (reportAddr_toNat_injective addr) s.canon
  have hwf' := write_three_keeps_wf s.canon (fun i => (reportAddr addr i).isLt) hwf
  exact ⟨_, _, buildReportNextState r1 addr s hready hinit, buildReportNextState r2 addr _ hready hinit,
    write_three_of_read hwf' hread, rfl, rfl, rfl⟩

/-! ## The report identifier (R226) -/

/-- Two command words that the block cannot tell apart: the checks give them the same steps, and RESP the same opcode. -/
def SameCommand (w w' : Word) : Prop :=
  fieldOp w = fieldOp w' ∧ ∀ s : State, checkedSteps { s with cur := w } = checkedSteps { s with cur := w' }

theorem SameCommand.refl (w : Word) : SameCommand w w := ⟨rfl, fun _ => rfl⟩

theorem sameCommand_encode (i i' : Instr) (hop : fieldOp (encode i) = fieldOp (encode i'))
    (hinit : needsInit i = needsInit i')
    (hsteps : ∀ s : State, stepsOf i { s with cur := encode i } = stepsOf i' { s with cur := encode i' }) :
    SameCommand (encode i) (encode i') :=
  ⟨hop, fun s => by simp only [checkedSteps, decode_encode, hinit, hsteps]⟩

/-- A sequencer step looks at CUR in the checks and in a completion only. -/
theorem doAct_withCur (a : Act) {s : State} {w : Word} (h : SameCommand s.cur w) :
    doAct a { s with cur := w } = { doAct a s with cur := w } := by
  obtain ⟨hop, hchecks⟩ := h
  cases a with
  | check => simp only [doAct, ← hchecks]
  | complete => simp only [doAct, complete, hop]
  | identify =>
    simp only [doAct, branchOnIdentity]
    split <;> rfl
  | _ => rfl

theorem fsmStep_withCur {s : State} {w : Word} (h : SameCommand s.cur w) :
    fsmStep { s with cur := w } = { fsmStep s with cur := w } := by
  rcases fsmStep_cases s with ⟨hs, he⟩ | ⟨a, rest, hs, he⟩ <;> rw [he]
  · exact fsmStep_idle _ hs
  · rw [fsmStep_cons { s with cur := w } hs]
    exact doAct_withCur a (s := { s with fsm := rest }) h

@[simp] theorem fsmStep_cur (s : State) : (fsmStep s).cur = s.cur := by
  rcases fsmStep_cases s with ⟨-, he⟩ | ⟨a, rest, -, he⟩ <;> rw [he]
  exact doAct_cur a _

theorem runFor_withCur (n : Nat) {s : State} {w : Word} (h : SameCommand s.cur w) :
    runFor n { s with cur := w } = { runFor n s with cur := w } := by
  induction n generalizing s with
  | zero => rfl
  | succ n ih => rw [runFor_succ, runFor_succ, fsmStep_withCur h, ih (by rwa [fsmStep_cur])]

/-- Two such words are issued alike: an accepted word is latched in CUR (R100), and nothing else tells them apart. -/
theorem issue_withCur {w w' : Word} (h : SameCommand w w') (s : State) :
    ∃ c, issue w' s = { issue w s with cur := c } := by
  have hwrite : ∃ c, SameCommand (writeCmd w s).cur c ∧ writeCmd w' s = { writeCmd w s with cur := c } := by
    unfold writeCmd
    split
    · exact ⟨_, .refl _, rfl⟩
    · split
      · exact ⟨_, .refl _, rfl⟩
      · exact ⟨w', h, rfl⟩
  obtain ⟨c, hc, he⟩ := hwrite
  exact ⟨c, by rw [issue, he]; exact runFor_withCur _ hc⟩

theorem exec_sameButCur {i i' : Instr} (h : SameCommand (encode i) (encode i')) (s : State) :
    ∃ t t', exec i s = .next t ∧ exec i' s = .next t' ∧ ({ t with cur := t'.cur } : State) = t' := by
  obtain ⟨c, he⟩ := issue_withCur h s
  exact ⟨_, _, exec_eq_issue i s, exec_eq_issue i' s, by rw [he]⟩

/-- Settles O38: the identifier is in neither the step table nor the opcode of any of the three forms. -/
theorem reportIdentifierIsIgnored : Obligations.ReportIdentifierIsIgnored := by
  intro r r' addr s
  refine ⟨exec_sameButCur (sameCommand_encode (.hasChanged r) (.hasChanged r') ?_ rfl fun _ => rfl) s,
    exec_sameButCur (sameCommand_encode (.buildReport r addr) (.buildReport r' addr) ?_ rfl fun _ => rfl) s,
    exec_sameButCur (sameCommand_encode (.buildReportNull r) (.buildReportNull r') ?_ rfl fun _ => rfl) s⟩ <;>
  simp only [encode, fieldOp_packWord]

end Sys2Proof.Machine
end

section
/-! SUPPORT. Exceptions (60_exceptions.md): the two completions a word comes to at its checks (R242, R243), and the masking
windows (R251, R267), which never nest and close before their command completes. -/

namespace Sys2Proof.Machine

/-! ## A word the checks turn away (R102, R242, R243) -/

theorem checkedSteps_of_illegal {e : IllegalWord} {s : State} (h : decode s.cur = .error e) :
    checkedSteps s = [.complete .errIllegal false 0#8] := by
  simp only [checkedSteps, h]

theorem checkedSteps_of_notInit {i : Instr} {s : State} (hcur : decode s.cur = .ok i) (hneeds : needsInit i = true)
    (hinit : s.initOk = false) : checkedSteps s = [.complete .errNotInit false 0#8] := by
  simp [checkedSteps, hcur, hneeds, hinit]

theorem needsInit_of_ne_init {i : Instr} (h : i ≠ .init) : needsInit i = true := by
  cases i with
  | init => exact absurd rfl h
  | _ => rfl

/-- A word whose checks come straight to a completion leaves CUR and the completion's RESP, and nothing else. -/
theorem issue_turnedAway {w : Word} {s : State} {code : Code} (hready : s.ready)
    (hchecks : (accepted w s).fsm = [.complete code false 0#8]) :
    issue w s = { s with cur := w, resp := respWord (fieldOp w) 0#8 false code, fsm := [], oldBytes := [] } := by
  have ⟨_, hbusy, _⟩ := hready
  rw [issue_table (l := []) hready hchecks (by simp) (by simp [stepsCost])]
  simp only [effects, complete, accepted, hbusy]

/-- Settles O10: the step issues the word, and the first check turns an illegal one away. -/
theorem illegalWordCompletesWithErrIllegal : Obligations.IllegalWordCompletesWithErrIllegal := by
  intro s n w e hready hhead hw
  have hhost : s.host = ⟨n, .writeReg 0#2 w⟩ :: s.host.tail := List.eq_cons_of_mem_head? hhead
  rw [step_of_cmdWrite hhost, issue_turnedAway hready (checkedSteps_of_illegal hw)]

/-- Settles O11: the second check turns away every command but INIT while INIT_OK = 0. -/
theorem commandBeforeInitCompletesWithErrNotInit : Obligations.CommandBeforeInitCompletesWithErrNotInit := by
  intro i s hi hready hinit
  have hchecks : (accepted (encode i) s).fsm = [.complete .errNotInit false 0#8] :=
    checkedSteps_of_notInit (decode_encode i) (needsInit_of_ne_init hi) hinit
  rw [exec_eq_issue, issue_turnedAway hready hchecks]

/-! ## HOST_IE across a window (R251, R267) -/

/-- Settles O52: a host write of HOST_IE leaves SAVED_IE as it is, and the close restores from SAVED_IE. -/
theorem windowCloseOverwritesHostIe : Obligations.WindowCloseOverwritesHostIe := by
  intro s u v
  refine ⟨maskIrq_hostIe s, maskIrq_savedIe s, fun hsaved => ?_⟩
  calc (doAct .restoreIrq (hostWriteIe v u)).hostIe
      _ = (hostWriteIe v u).savedIe := restoreIrq_hostIe _
      _ = s.hostIe := hsaved

/-! ## The windows of the step tables -/

/-- A stretch that only works the lines opens and closes no window. -/
theorem windowShape_append_of_worksLines {l : List Act} (h : ∀ a ∈ l, worksLines a = true) (w : Bool) (rest : List Act) :
    windowShape w (l ++ rest) = windowShape w rest := by
  induction l with
  | nil => rfl
  | cons a l ih =>
    obtain ⟨ha, hl⟩ := List.forall_mem_cons.1 h
    have hskip : windowShape w (a :: (l ++ rest)) = windowShape w (l ++ rest) := by
      cases a with
      | maskIrq | restoreIrq | check | complete | identify | compare => simp [worksLines] at ha
      | _ => rfl
    exact hskip.trans (ih hl)

/-- INIT's window opens in its head and is closed by its plain end, or for DB9 still open at the identification (R104). -/
theorem windowShape_initSteps (b : Build) : windowShape false (initSteps b) = true := by
  have hread := db9ReadFullSteps_worksLines b.literals
  unfold initSteps
  split
  · rfl
  · rfl
  · exact windowShape_append_of_worksLines hread true [.identify]

/-- POLL's read opens no window of its own, so it stands inside DB9's window, or outside any (R107). -/
theorem windowShape_pollSteps (b : Build) (k : Kind) : windowShape false (pollSteps b k) = true := by
  have hread := windowShape_append_of_worksLines (readSteps_worksLines b k)
  unfold pollSteps
  split
  · exact hread true [.restoreIrq, .translate, .complete .ok false 0#8]
  · exact hread false [.translate, .complete .ok false 0#8]
  · exact hread false [.translate, .complete .ok false 0#8]

theorem windowShape_stepsOf (i : Instr) (s : State) : windowShape false (stepsOf i s) = true := by
  cases i with
  | init => exact windowShape_initSteps s.build
  | poll => exact windowShape_pollSteps s.build s.kind
  | hasChanged | buildReport | buildReportNull => rfl

theorem windowShape_checkedSteps (s : State) : windowShape false (checkedSteps s) = true := by
  unfold checkedSteps
  split
  · rfl
  · split
    · rfl
    · exact windowShape_stepsOf _ s

/-- Both ends of INIT close the window that is open at its identification (R104, R162). -/
theorem windowShape_branchOnIdentity (s : State) : windowShape true (branchOnIdentity s).fsm = true := by
  rcases branchOnIdentity_fsm s with he | he <;> rw [he] <;> rfl

/-! ## Every step keeps the windows closing -/

/-- A window step changes on which side of a window the rest starts; every other step leaves it, with what it puts in
place starting on its own side. -/
theorem windowShape_doAct {a : Act} {s : State} {w : Bool} (h : windowShape w (a :: s.fsm) = true) :
    ∃ w', windowShape w' (doAct a s).fsm = true := by
  cases a with
  | maskIrq => exact ⟨true, (Bool.and_eq_true_iff.1 h).2⟩
  | restoreIrq => exact ⟨false, (Bool.and_eq_true_iff.1 h).2⟩
  | check => exact ⟨false, windowShape_checkedSteps s⟩
  | identify => exact ⟨true, windowShape_branchOnIdentity s⟩
  | compare | complete => exact ⟨false, rfl⟩
  | _ => exact ⟨w, h⟩

theorem windowsClose_fsmStep {s : State} (h : WindowsClose s) : WindowsClose (fsmStep s) := by
  rcases fsmStep_cases s with ⟨-, he⟩ | ⟨a, rest, hs, he⟩ <;> rw [he]
  · exact h
  · obtain ⟨w, hw⟩ := h
    exact windowShape_doAct (s := { s with fsm := rest }) (hs ▸ hw)

/-- No host operation writes the steps still to be taken, but for a command's acceptance, which starts it outside any
window at its checks, and reset, which abandons it (R100, R260). -/
theorem windowsClose_kept : Kept WindowsClose :=
  kept_of_cases
    (hfsm := fun _ => windowsClose_fsmStep)
    (hport := fun _ _ _ _ _ h => h)
    (hdrop := fun _ h => h)
    (haccept := fun _ _ _ => ⟨false, rfl⟩)
    (hwrite := fun _ _ _ h => h)
    (hreset := fun _ _ _ _ => ⟨false, rfl⟩)

/-- Settles O58: every table a command puts in place opens a window at most once and closes it, and every sequencer step
leaves what is still to be taken so. -/
theorem windowsCloseIsKept : Obligations.WindowsCloseIsKept :=
  fun _ _ h hst => windowsClose_kept.step h hst

end Sys2Proof.Machine
end

section
/-! SUPPORT. Reset and the idle block (R260, R261): what a change of RST comes to, what the block holds while RST is asserted,
and the invariants at reset. -/

namespace Sys2Proof.Machine

/-! ## The idle block -/

/-- With no host operation waiting the block runs on by itself. -/
theorem step_of_noHost {s : State} (h : s.host = []) : step s = .next (run s) := by
  simp only [step, serveNext, h]

/-- Settles O7: nothing lands, and an idle sequencer stays as it is. -/
theorem idleBlockWaits : Obligations.IdleBlockWaits := by
  intro s hidle hhost
  rw [step_of_noHost hhost, run_idle hidle]

/-! ## RST asserted and released -/

/-- RST asserted is recorded only where it was not asserted already (log 10). -/
theorem setRst_true (s : State) :
    setRst true s =
      { holdReset s with rst := true, trace := if s.rst = true then s.trace else s.trace ++ [.reset] } := by
  cases h : s.rst with
  | true => simp [setRst, holdReset, h]
  | false => simp [setRst, holdReset, emit, h]

theorem setRst_false_of_rst {s : State} (h : s.rst = true) :
    setRst false s = { holdReset s with rst := false, trace := s.trace } := by
  simp [setRst, holdReset, h]

theorem resetValued_holdReset (s : State) (r : Bool) (tr : List Event) :
    ResetValued { holdReset s with rst := r, trace := tr } :=
  ⟨rfl, rfl, rfl, rfl, rfl, rfl, rfl, rfl, rfl, rfl⟩

/-- A change of RST that holds the block leaves it idle, so nothing runs after it in the step, and what is outside the block
is not written. -/
theorem step_of_held {s : State} {n : Nat} {v r : Bool} {rest : List Arrival} {tr : List Event}
    (hhost : s.host = ⟨n, .setRst v⟩ :: rest)
    (hheld : setRst v { s with host := rest } = { holdReset { s with host := rest } with rst := r, trace := tr }) :
    ∃ t, step s = .next t ∧ ResetValued t ∧ t.rst = r ∧ t.host = rest ∧ t.trace = tr ∧
      t.hostIe = s.hostIe ∧ t.build = s.build ∧ ∀ a, t.mem.read a = s.mem.read a := by
  refine ⟨_, ?_, resetValued_holdReset { s with host := rest } r tr, rfl, rfl, rfl, rfl, rfl, fun _ => rfl⟩
  rw [step_of_host hhost, serve, hheld, run_idle rfl]

/-- Settles O46: RST asserted holds the block whatever ran, and its one event is the reset. -/
theorem resetAbandonsTheCommand : Obligations.ResetAbandonsTheCommand :=
  fun _ _ _ hhost => step_of_held hhost (setRst_true _)

/-- Settles O47: the release of an asserted RST holds the block once more, without an event. -/
theorem resetReleaseHoldsTheResetValues : Obligations.ResetReleaseHoldsTheResetValues :=
  fun _ _ _ hrst hhost => step_of_held hhost (setRst_false_of_rst hrst)

/-! ## What RST holds is kept -/

theorem rstHolds_of_released {s : State} (h : s.rst = false) : RstHolds s := fun hrst => by simp [h] at hrst

/-- While RST is asserted the sequencer is idle, and no step of it asserts RST. -/
theorem rstHolds_fsmStep {s : State} (h : RstHolds s) : RstHolds (fsmStep s) := by
  cases hrst : s.rst with
  | true =>
    have hidle : s.fsm = [] := congrArg State.fsm (h hrst)
    rwa [fsmStep_idle s hidle]
  | false =>
    obtain ⟨-, -, -, hkeeps, -⟩ := fsmStep_fixed s
    exact rstHolds_of_released (hkeeps.trans hrst)

/-- A CMD write is ignored while RST is asserted (log 15), and writes no RST. -/
theorem rstHolds_writeCmd (w : Word) {s : State} (h : RstHolds s) : RstHolds (writeCmd w s) := by
  cases hrst : s.rst with
  | true => rwa [writeCmd, if_pos hrst]
  | false =>
    rcases writeCmd_cases w s with he | ⟨-, he⟩ | ⟨-, he⟩ <;> rw [he] <;> exact rstHolds_of_released hrst

/-- What a host operation may write outside the block is none of what RST holds. -/
theorem rstHolds_port {s : State} (h : RstHolds s) (host : List Arrival) (rdata : Word) (races : Nat) (hostIe : Bool) :
    RstHolds { s with host := host, rdata := rdata, races := races, hostIe := hostIe } := fun hrst =>
  congrArg (fun u : State => { u with host := host, rdata := rdata, races := races, hostIe := hostIe }) (h hrst)

/-- No old bytes are kept while RST is asserted, so a host write of memory has none to forget. -/
theorem rstHolds_hostWriteMem (a : Addr) (v : Byte) {s : State} (h : RstHolds s) : RstHolds (hostWriteMem a v s) :=
  fun hrst => congrArg (hostWriteMem a v) (h hrst)

theorem rstHolds_kept : Kept RstHolds where
  fsm _ := rstHolds_fsmStep
  pop s rest h := rstHolds_port h rest s.rdata s.races s.hostIe
  cmd w _ := rstHolds_writeCmd w
  readReg i s h := rstHolds_port h s.host (regRead i s) s.races s.hostIe
  readMem a s h := by
    obtain ⟨d, n, he⟩ := hostReadMem_cases a s
    rw [he]
    exact rstHolds_port h s.host d n s.hostIe
  writeMem a v _ := rstHolds_hostWriteMem a v
  writeIe v s h := rstHolds_port h s.host s.rdata s.races v
  rst v s h := by
    rcases setRst_cases v s with he | ⟨r, tr, he⟩ <;> rw [he]
    · exact h
    · exact fun _ => rfl

/-- Settles O49: an asserted RST leaves the sequencer nothing to do and ignores CMD, and every other operation of the host
writes only what RST does not hold. -/
theorem rstHoldsIsKept : Obligations.RstHoldsIsKept :=
  fun _ _ h hst => rstHolds_kept.step h hst

/-! ## The state after reset -/

/-- Only FAMILY, which is fixed, shows in STATUS when every flag is at its reset value. -/
theorem statusWord_of_resetValued {s : State} (h : ResetValued s) :
    s.statusWord = (familyBits s.build.family).setWidth 32 <<< 6 := by
  obtain ⟨-, -, hbusy, hinit, hfirst, hkind, hdrop, hen, -, -⟩ := h
  simp [State.statusWord, hbusy, hinit, hfirst, hkind, hdrop, hen, kindBits]

theorem resetValued_reset : ResetValued State.reset := resetValued_holdReset State.reset false []

/-- Settles O48: the state after reset has the values a held block has. -/
theorem resetValues : Obligations.ResetValues := by
  obtain ⟨hfsm, hresp, -, -, -, -, -, -, hdriven, hwait⟩ := resetValued_reset
  exact ⟨hfsm, hresp, statusWord_of_resetValued resetValued_reset, hwait, hdriven⟩

theorem sequenced_reset : Sequenced State.reset :=
  ⟨by simp [State.reset], rfl, Nat.zero_le _, fun _ => rfl⟩

/-- At reset the lines are released, and no step is still to be taken that would drive them. -/
theorem linesSettle_reset : LinesSettle State.reset := ⟨sequenced_reset, by simp [State.reset]⟩

/-- Settles O60: at reset no command runs, the lines are released, memory lists no byte, RESP is 0, and the reports are those
a held block has. -/
theorem resetMeetsTheInvariants : Obligations.ResetMeetsTheInvariants :=
  ⟨rfl, sequenced_reset, reportsLegal_holdReset State.reset false [], linesSettle_reset, ⟨false, rfl⟩, rfl, fun _ => rfl⟩

end Sys2Proof.Machine
end

section
/-! SUPPORT. The minimum durations of the read sequences (R272), from the waits of their events. -/

namespace Sys2Proof.Machine

theorem minimumUs_append (l r : List Event) : minimumUs (l ++ r) = minimumUs l + minimumUs r := by
  induction l with
  | nil => exact (Nat.zero_add _).symm
  | cons e l ih =>
    cases e with
    | wait us => exact (congrArg (us + ·) ih).trans (Nat.add_assoc _ _ _).symm
    | _ => exact ih

theorem minimumUs_nesBitEvents (l : Literals) (d : BitVec 1) :
    minimumUs (nesBitEvents l d) = l.tClkSetupUs + l.tClkHoldUs := rfl

theorem minimumUs_nesReadEvents (l : Literals) (d : Nat → BitVec 1) :
    minimumUs (nesReadEvents l d) = l.tLatchUs + 8 * (l.tClkSetupUs + l.tClkHoldUs) := by
  simp only [nesReadEvents, minimumUs_append, minimumUs_nesBitEvents, minimumUs]
  omega

theorem minimumUs_db9FullEvents (l : Literals) (b : Nat → BitVec 6) :
    minimumUs (db9FullEvents l b) = 8 * l.tDb9SettleUs := by
  simp only [db9FullEvents, minimumUs]
  omega

/-- INIT's settle comes before its full read (R159). -/
theorem minimumUs_db9Init (l : Literals) (b : Nat → BitVec 6) :
    minimumUs (.wait (l.tDb9InitMs * 1000) :: db9FullEvents l b) = l.tDb9InitMs * 1000 + 8 * l.tDb9SettleUs :=
  congrArg (l.tDb9InitMs * 1000 + ·) (minimumUs_db9FullEvents l b)

theorem minimumUs_db9ShortEvents (l : Literals) (b : BitVec 6) : minimumUs (db9ShortEvents l b) = l.tDb9SettleUs := rfl

theorem minimumUs_tg16ReadEvents (l : Literals) (a b : BitVec 4) :
    minimumUs (tg16ReadEvents l a b) = 3 * l.tTg16Us := by
  simp only [tg16ReadEvents, minimumUs]
  omega

/-- Settles O53: one wait of the latch and two for each of eight bits, eight and one of the DB9 settle, three of TG16; the
source's values are put in for the literals. -/
theorem minimumDurations : Obligations.MinimumDurations := by
  intro l d b b0 a1 a2
  exact ⟨minimumUs_nesReadEvents l d, minimumUs_db9Init l b, minimumUs_db9FullEvents l b, minimumUs_db9ShortEvents l b0,
    minimumUs_tg16ReadEvents l a1 a2, minimumUs_nesReadEvents .source d, minimumUs_db9Init .source b,
    minimumUs_db9FullEvents .source b, minimumUs_db9ShortEvents .source b0, minimumUs_tg16ReadEvents .source a1 a2⟩

end Sys2Proof.Machine
end
